-- ==== Sys2Proof/Word.lean ====
section
/-! DEFINITION. The word types of the block (spec 00_scope R10: every quantity is unsigned). -/

namespace Sys2Proof

/-- A `u8` (R10). -/
abbrev Byte := BitVec 8

/-- A `u16` (R10). -/
abbrev U16 := BitVec 16

/-- A command word (30_encoding R77). -/
abbrev Word32 := BitVec 32

end Sys2Proof
end

