-- ==== Sys2Proof/Config.lean ====
section
/-! DEFINITION. The implementation parameters of 00_scope R8 and the free values of the model. -/

namespace Sys2Proof

/-- The four fields of a packet header (10_state R25, 30_encoding R70). -/
structure Header where
  src  : Byte
  dst  : Byte
  size : U16
  crc  : U16
  deriving DecidableEq, Repr, Inhabited

/-- `EngineState`, the values of `STATUS` (10_state R23, 30_encoding R81). -/
inductive Machine.Status where
  | notInitialized
  | ready
  | allocationFailure
  | packetOverSize
  | crcError
  | badHeader
  | badPacket
  deriving DecidableEq, Repr, Inhabited

/-- `WIRE_ORDER` (R8, 20_memory R53): which byte of a 16-bit header field comes first. -/
inductive WireOrder where
  | little
  | big
  deriving DecidableEq, Repr

/-- `WIRE_ORDER = little` (R8, R53, D6). UNVERIFIED against a real node, unsafe: log 17. -/
def Config.wireOrder : WireOrder := .little

/-- `HEADER_SIZE` (R8). -/
def Config.headerSize : U16 := 6

/-- `BROADCAST_ID` (R8, R76). -/
def Config.broadcastId : Byte := 255

/-- `MAX_PACKET_SIZE` (R8, R73, R102). -/
def Config.maxPacketSize : U16 := 500

/-- `LOCAL_ID` of this instance: open, 0 to 254 (R8, R22, D16). -/
opaque Config.localId : Fin 255

/-- `LINE_RATE`: open, passed to `T.begin` and otherwise unused (R8, R44, D21). -/
opaque Config.lineRate : Nat

/-- `crc16`: an uninterpreted total function of the payload bytes (R8, R52, D20). -/
opaque Config.crc16 : List Byte → U16

/-- Free value: the `header_out` of a RECV that ended in `Rejected` or `BadHeader`
(43_receive R162: "unspecified; a model gives it any value"). That it is a function of a node's source and its count of
draws is a DESIGN CHOICE, log 6. -/
opaque Config.freeHeaderOut (source draw : Nat) : Header

/-- Free value: the answer bit of a reserved word with `op = 0x1` (30_encoding R80, R82), log 7. -/
opaque Config.freeBit (source draw : Nat) : Bool

/-- Free value: the status whose code a reserved word with `op = 0x2` answers (30_encoding R80, R82), log 7. A status,
because code 7 is never returned (R81). -/
opaque Config.freeStatus (source draw : Nat) : Machine.Status

end Sys2Proof
end

