-- ==== Sys2Proof/Syntax.lean ====
section
/-! DEFINITION. The operations of the block, one constructor per row of spec/opcode_table.json (30_encoding R78). -/

namespace Sys2Proof

/-- An operation with its operands (30_encoding R78, R79). No operand is extended, scaled or shifted. -/
inductive Instr where
  /-- `begin()` (R120). -/
  | begin
  /-- `has_error()` (R121). -/
  | haserr
  /-- `get_error()` (R122). -/
  | geterr
  /-- `setPacketHandler(handler)` (R123): `ref = C[15:0]`. -/
  | seth (ref : U16)
  /-- `poll()` (R140). -/
  | poll
  /-- `receivePacket(header_out, buffer, buffer_capacity)` (R160): `capacity = C[15:0]`. -/
  | recv (capacity : U16)
  /-- `sendPacket(dst, payload, size)` (R180): `dst = C[23:16]`, `size = C[15:0]`. -/
  | send (dst : Byte) (size : U16)
  /-- The deprecated overload (R170): every word with `op = 0x7`; `rest` is `C[27:0]`, which nothing reads. -/
  | recvl (rest : BitVec 28)
  deriving DecidableEq, Repr

end Sys2Proof
end

