-- ==== Sys2Proof/WellFormed.lean ====
section
/-! DEFINITION. Which operations the host may issue. -/

namespace Sys2Proof

/-- The host may not issue a reserved command word (70_reset_and_hazards R262, 30_encoding R82). The operands'
types already hold every width of R77, so the one reserved form that is an operation of the table, RECVL, is the
one check left. -/
def Instr.wf : Instr → Bool
  | .begin => true
  | .haserr => true
  | .geterr => true
  | .seth _ => true
  | .poll => true
  | .recv _ => true
  | .send _ _ => true
  | .recvl _ => false

end Sys2Proof
end

