-- ==== Sys2Proof/Decode.lean ====
section
/-! DEFINITION. The command word: its decoder, which rejects reserved words by name, and the encoder
(30_encoding R77 to R79, R82). -/

namespace Sys2Proof

/-- Why a command word is reserved (R82), by name. -/
inductive Reserved where
  /-- `op` is 0x8 to 0xF. -/
  | opcode
  /-- `z` is not zero. -/
  | zNotZero
  /-- `dst` is not zero though the operation has no `dst`. -/
  | dstNotZero
  /-- `arg` is not zero though the operation has no `arg`. -/
  | argNotZero
  deriving DecidableEq, Repr

/-- What a command word says: an operation, or the name of why it is reserved. -/
inductive Decoded where
  | instr (i : Instr)
  | reserved (why : Reserved)
  deriving DecidableEq, Repr

/-- `C[31:28]` (R77). -/
def opField (c : Word32) : BitVec 4 := c.extractLsb' 28 4

/-- `C[27:24]` (R77). -/
def zField (c : Word32) : BitVec 4 := c.extractLsb' 24 4

/-- `C[23:16]` (R77). -/
def dstField (c : Word32) : Byte := c.extractLsb' 16 8

/-- `C[15:0]` (R77). -/
def argField (c : Word32) : U16 := c.extractLsb' 0 16

/-- An operation without operands: `dst` and `arg` must be zero (R77, R82). -/
def noOperand (c : Word32) (i : Instr) : Decoded :=
  if zField c ≠ 0 then .reserved .zNotZero
  else if dstField c ≠ 0 then .reserved .dstNotZero
  else if argField c ≠ 0 then .reserved .argNotZero
  else .instr i

/-- An operation with the operand `arg` alone: `dst` must be zero (R77, R82). -/
def argOperand (c : Word32) (i : U16 → Instr) : Decoded :=
  if zField c ≠ 0 then .reserved .zNotZero
  else if dstField c ≠ 0 then .reserved .dstNotZero
  else .instr (i (argField c))

/-- An operation with the operands `dst` and `arg` (R77, R82). -/
def dstArgOperand (c : Word32) (i : Byte → U16 → Instr) : Decoded :=
  if zField c ≠ 0 then .reserved .zNotZero
  else .instr (i (dstField c) (argField c))

/-- The decoder of command words (R78, R82), total on every 32-bit word. -/
def decode (c : Word32) : Decoded :=
  if opField c = 0x0 then noOperand c .begin
  else if opField c = 0x1 then noOperand c .haserr
  else if opField c = 0x2 then noOperand c .geterr
  else if opField c = 0x3 then argOperand c .seth
  else if opField c = 0x4 then noOperand c .poll
  else if opField c = 0x5 then argOperand c .recv
  else if opField c = 0x6 then dstArgOperand c .send
  else if opField c = 0x7 then .instr (.recvl (c.extractLsb' 0 28))
  else .reserved .opcode

/-- A command word from its four fields (R77). -/
def packWord (op : BitVec 4) (dst : Byte) (arg : U16) : Word32 :=
  op ++ ((0 : BitVec 4) ++ (dst ++ arg))

/-- The encoder (R78, R83): the command word of an operation. -/
def encode : Instr → Word32
  | .begin => packWord 0x0 0 0
  | .haserr => packWord 0x1 0 0
  | .geterr => packWord 0x2 0 0
  | .seth ref => packWord 0x3 0 ref
  | .poll => packWord 0x4 0 0
  | .recv capacity => packWord 0x5 0 capacity
  | .send dst size => packWord 0x6 dst size
  | .recvl rest => (0x7 : BitVec 4) ++ rest

/-- The operation code of an operation (R78). -/
def opcode : Instr → BitVec 4
  | .begin => 0x0
  | .haserr => 0x1
  | .geterr => 0x2
  | .seth _ => 0x3
  | .poll => 0x4
  | .recv _ => 0x5
  | .send _ _ => 0x6
  | .recvl _ => 0x7

/-- The mnemonic of an operation (R78, R83). -/
def mnemonic : Instr → String
  | .begin => "BEGIN"
  | .haserr => "HASERR"
  | .geterr => "GETERR"
  | .seth _ => "SETH"
  | .poll => "POLL"
  | .recv _ => "RECV"
  | .send _ _ => "SEND"
  | .recvl _ => "RECVL"

/-- The operation that a word numbered as spec/opcode_table.json numbers it stands for: the table's 32 bits are the
command word itself (R77). -/
def decodeTableWord (nbits w : Nat) : Option Instr :=
  if nbits ≤ 32 ∧ w < 2 ^ 32 then
    match decode (BitVec.ofNat 32 w) with
    | .instr i => some i
    | .reserved _ => none
  else none

end Sys2Proof
end

