-- ==== Sys2Proof/Machine/State.lean ====
section
/-! DEFINITION. The state of the block, of the collaborators it talks to, and the record of a run
(10_state R20 to R34, 20_memory R40 to R52). Plain data throughout. -/

namespace Sys2Proof.Machine

/-! ## Registers -/

/-- Who issued a command: the host, or the handler during a dispatch (42_poll R144, 70_reset_and_hazards R253). -/
inductive Caller where
  | host
  | handler
  deriving DecidableEq, Repr

/-- `PHASE` (10_state R27): no operation, one value per numbered step of the operations' rules, and `DISPATCH`.
In a step that asks a collaborator, the request has been issued and its answer is awaited. The steps of SEND say
who issued it, because a nested SEND (42_poll R144) leaves the POLL around it in its dispatch. -/
inductive Phase where
  | idle
  | begin1
  | poll0 | poll1 | poll2 | poll3 | poll4 | poll5
  | dispatch
  | poll6
  | recv1 | recv2 | recv3 | recv4
  | send1 (by_ : Caller) | send2 (by_ : Caller) | send3 (by_ : Caller) | send4 (by_ : Caller) | send5 (by_ : Caller)
  deriving DecidableEq, Repr

/-- A buffer handle of the allocator, opaque (10_state R26, 20_memory R50, D2). -/
abbrev Handle := Nat

/-! ## Byte spaces -/

/-- The bytes of one buffer (20_memory R40, R42): offsets strictly rising, one entry an offset. An offset that is
not listed has no value: nothing has written it. -/
abbrev Memory := List Host.Cell

/-- The three buffers (00_scope R14). -/
inductive Space where
  | pbuf
  | cbuf
  | src
  deriving DecidableEq, Repr

/-! ## Interface events -/

/-- An answer of the allocator (20_memory R50). -/
inductive AllocAnswer where
  | ok (h : Handle)
  | fail
  deriving DecidableEq, Repr

/-- A request of the engine to a collaborator (00_scope R13, D2). -/
inductive Request where
  | tBegin (rate : Nat)
  | tAvailable
  | tReadBytes (n : U16)
  | tRead
  | tBeginTransmission
  | tWrite (d : List Byte)
  | tEndTransmission
  | aAcquire (n : U16)
  | aRelease (h : Handle)
  | hHandle (ref : U16) (hdr : Header) (p : List Byte)
  deriving DecidableEq, Repr

/-- An answer that carries something, and the handler's return (00_scope R13). `tRead none` is an answer without
a byte (20_memory R47). -/
inductive Answer where
  | tAvailable (a : Bool)
  | tReadBytes (k : U16) (d : List Byte)
  | tRead (v : Option Byte)
  | aAcquire (r : AllocAnswer)
  | hReturn
  deriving DecidableEq, Repr

/-- One interface event of `TRACE` (00_scope R13). -/
inductive Event where
  | request (r : Request)
  | answer (a : Answer)
  deriving DecidableEq, Repr

/-- What a caller gets at the end of a command (30_encoding R80). -/
inductive Response where
  /-- BEGIN, SETH, POLL, SEND: a bare completion. -/
  | done
  /-- HASERR: `resp[0]`. -/
  | hasErr (b : Bool)
  /-- GETERR: `resp[2:0]`. -/
  | getErr (code : BitVec 3)
  /-- RECV: `bytes_read` and `header_out`. -/
  | recv (bytesRead : U16) (headerOut : Header)
  deriving DecidableEq, Repr

/-- A command that was rejected with no effect, by name (log 8). -/
inductive Rejection where
  /-- POLL, RECV or SEND while `STATUS = NotInitialized` (40_datapath_units R109, U1). -/
  | notInitialized
  /-- BEGIN from the handler (42_poll R144, U14). -/
  | nestedBegin
  /-- POLL from the handler (R144, U14). -/
  | nestedPoll
  /-- RECV from the handler (R144, U14). -/
  | nestedRecv
  /-- RECVL, the deprecated overload (43_receive R170, U18). -/
  | legacyRecv
  /-- Any other reserved command word (30_encoding R82, U13). -/
  | reservedWord (why : Reserved)
  deriving DecidableEq, Repr

/-! ## Collaborators -/

/-- Answers a transport has yet to give, one queue or count a channel (20_memory R41, R44 to R48): free inputs under
no law but their types. A channel with nothing left has not answered yet. -/
structure TransportAnswers where
  /-- How many `T.begin` requests it takes. -/
  begins : Nat
  /-- Answers to `T.available()`. -/
  avail : List Bool
  /-- Answers to `T.readBytes(n)`: `k` and the bytes. -/
  readBytes : List (U16 × List Byte)
  /-- Answers to `T.read()`: a byte, or a no-data value. -/
  reads : List (Option Byte)
  /-- How many `T.beginTransmission()` requests it takes. -/
  txBegins : Nat
  /-- How many `T.write` requests it takes. -/
  writes : Nat
  /-- How many `T.endTransmission()` requests it takes. -/
  txEnds : Nat
  deriving DecidableEq, Repr

/-- The transport: free answers, or one of the two reference transports of 20_memory R63 with its queue `Q`. -/
inductive Transport where
  | answers (a : TransportAnswers)
  | queue (q : List Byte)
  | blocking (q : List Byte)
  deriving DecidableEq, Repr

/-- The allocator: free answers (20_memory R50), or the one of 95_test_vectors section 1 that answers `ok`, with the
handle it gives next. -/
inductive Allocator where
  | answers (l : List AllocAnswer)
  | alwaysOk (next : Handle)
  deriving DecidableEq, Repr

/-- A command on the command channel (D2): the word, and the byte space handed over with it (`SRC` with a SEND,
`CBUF` with a RECV). -/
structure Command where
  word  : Word32
  space : Memory
  deriving DecidableEq, Repr

/-- A move of the handler while a dispatch waits for it (20_memory R51, 42_poll R144). -/
inductive HandlerMove where
  | command (c : Command)
  | ret
  deriving DecidableEq, Repr

/-- Which `crc16` the instance has: the uninterpreted parameter (20_memory R52), or the test instantiation of
95_test_vectors section 1 (log 13). -/
inductive CrcUnit where
  | uninterpreted
  | testXmodem
  deriving DecidableEq, Repr

/-! ## The state -/

/-- The state of one node: the registers of 10_state R20, the values an operation in progress holds, the byte
spaces, the collaborators' pending answers and moves, and the record of the run. -/
structure State where
  /-- `LOCAL_ID` (R22), 0 to 254. -/
  localId : Fin 255
  /-- `STATUS` (R23). -/
  status : Status
  /-- `HANDLER_VALID` (R24). -/
  handlerValid : Bool
  /-- `HANDLER_REF` (R24). -/
  handlerRef : U16
  /-- `HDR` (R25). -/
  hdr : Header
  /-- `BUFH` (R26): the handle held, if any. -/
  bufh : Option Handle
  /-- `PHASE` (R27). -/
  phase : Phase
  /-- `C[23:16]` of the command in progress (30_encoding R79). -/
  cmdDst : Byte
  /-- `C[15:0]` of the command in progress (30_encoding R79). -/
  cmdArg : U16
  /-- The header value of a nested SEND (42_poll R144, 44_send R182). -/
  nestedHdr : Header
  /-- Drain requests not yet answered (40_datapath_units R106, R110). -/
  drainLeft : U16
  /-- `PBUF` (20_memory R42). -/
  pbuf : Memory
  /-- `CBUF` (R42). -/
  cbuf : Memory
  /-- `SRC` (R42). -/
  src : Memory
  /-- `TX` (R41): the bytes written, in order. -/
  tx : List Byte
  /-- The transport, `RX` with it (R41, R43). -/
  transport : Transport
  /-- The allocator (R50). -/
  allocator : Allocator
  /-- The handler's moves to come (R51). -/
  handler : List HandlerMove
  /-- The host's commands to come (70_reset_and_hazards R253, R261). -/
  cmds : List Command
  /-- Which `crc16` (R52). -/
  crcUnit : CrcUnit
  /-- `TRACE` (00_scope R13), oldest first. -/
  trace : List Event
  /-- The responses given (30_encoding R80), oldest first. -/
  responses : List (Caller × Response)
  /-- The commands rejected, by name (log 8), oldest first. -/
  rejected : List Rejection
  /-- How many free values have been drawn (log 6). -/
  draws : Nat
  /-- Which sequence of free values the node draws from; on a bus, its number there (log 6). No step writes it. -/
  freeSource : Nat
  deriving DecidableEq, Repr

/-- A channel on which the engine can be waiting (R251). -/
inductive Channel where
  | tBegin
  | tAvailable
  | tReadBytes
  | tRead
  | tBeginTransmission
  | tWrite
  | tEndTransmission
  | aAcquire
  | hHandle
  deriving DecidableEq, Repr

/-- Why the engine has no step. -/
inductive Fault where
  /-- Raised by `step` when the engine awaits an answer that its collaborator has not given (70_reset_and_hazards
  R251, U5, U17). Safe: nothing is lost, and the state it stopped in goes on once the answer is there. -/
  | waiting (ch : Channel)
  /-- Raised by `step` when `PHASE = IDLE` and the host has issued no command (R261). Safe: the state it stopped in
  goes on once a command is there. -/
  | atRest
  deriving DecidableEq, Repr

/-- Why a form is given no meaning. -/
inductive Refusal where
  /-- Raised by `exec` for an operation without a meaning; no arm does. Safe. -/
  | notModelled (mnemonic : String)
  /-- Raised by `exec` when an operation is in progress and no dispatch waits (R253, D29, U15): such a command is
  not served. `step` never asks for it. Safe. -/
  | commandWhileBusy
  /-- Raised when the transport answers `T.readBytes(n)` with `k > n`, or with other than `k` bytes
  (20_memory R46, D26, U10). Safe. -/
  | transportContract
  /-- Raised when a byte of a buffer is read that nothing has written: in `SRC`, when the host handed over fewer bytes
  than `size` (R262: "is assumed never to", U25). Safe. -/
  | bufferByteMissing (sp : Space)
  deriving DecidableEq, Repr

/-- The outcome of running the engine. -/
abbrev Result := Host.Outcome State Fault Refusal

/-- The state right after reset (10_state R33, 70_reset_and_hazards R240). `LOCAL_ID` is the instance parameter. Where
R33 says unspecified the value is zero (logs 2, 3); the collaborators are the reference ones, with nothing queued
(log 4). -/
def State.reset : State where
  localId := Config.localId
  status := .notInitialized
  handlerValid := false
  handlerRef := 0
  hdr := { src := 0, dst := 0, size := 0, crc := 0 }
  bufh := none
  phase := .idle
  cmdDst := 0
  cmdArg := 0
  nestedHdr := { src := 0, dst := 0, size := 0, crc := 0 }
  drainLeft := 0
  pbuf := []
  cbuf := []
  src := []
  tx := []
  transport := .queue []
  allocator := .alwaysOk 0
  handler := []
  cmds := []
  crcUnit := .uninterpreted
  trace := []
  responses := []
  rejected := []
  draws := 0
  freeSource := 0

end Sys2Proof.Machine
end

