-- ==== Sys2Proof/Machine/Buffers.lean ====
section
/-! DEFINITION. Reading and writing the bytes of a buffer (00_scope R14: `BufRead` and `BufWrite`). -/

namespace Sys2Proof.Machine

/-- The canonical form of a buffer: offsets strictly rising. -/
def Memory.wf : Memory → Bool
  | [] => true
  | c :: rest =>
    (match rest with
      | [] => true
      | d :: _ => decide (c.1 < d.1)) && Memory.wf rest

/-- The byte at an offset, if anything has written it. -/
def Memory.read : Memory → Nat → Option Byte
  | [], _ => none
  | c :: rest, a => if a = c.1 then some c.2 else Memory.read rest a

/-- Store one byte at an offset. -/
def Memory.write : Memory → Nat → Byte → Memory
  | [], a, b => [(a, b)]
  | c :: rest, a, b =>
    if a < c.1 then (a, b) :: c :: rest
    else if a = c.1 then (a, b) :: rest
    else c :: Memory.write rest a b

/-- `BufWrite(space, off, d)` (R14): the bytes in rising offset order. -/
def Memory.writeBytes : Memory → Nat → List Byte → Memory
  | m, _, [] => m
  | m, a, b :: d => Memory.writeBytes (m.write a b) (a + 1) d

/-- `BufRead(space, off, n)` (R14): the `n` bytes from an offset upward, if every one of them has been written. -/
def Memory.readBytes (m : Memory) : Nat → Nat → Option (List Byte)
  | _, 0 => some []
  | a, n + 1 =>
    match m.read a with
    | none => none
    | some b =>
      match Memory.readBytes m (a + 1) n with
      | none => none
      | some d => some (b :: d)

end Sys2Proof.Machine
end

