-- ==== Sys2Proof/Machine/Crc.lean ====
section
/-! DEFINITION. The checksum function of an instance (20_memory R52) and the test instantiation of
95_test_vectors section 1 (93_implementation_defined G2). -/

namespace Sys2Proof.Machine

/-- One bit of the test CRC: polynomial 0x1021, most significant bit first. -/
def xmodemBit (c : U16) : U16 :=
  if c.msb then (c <<< 1) ^^^ 0x1021 else c <<< 1

/-- One byte of the test CRC. -/
def xmodemByte (c : U16) (b : Byte) : U16 :=
  xmodemBit (xmodemBit (xmodemBit (xmodemBit (xmodemBit (xmodemBit (xmodemBit (xmodemBit
    (c ^^^ ((b ++ (0 : Byte)) : U16)))))))))

/-- CRC-16/XMODEM: initial value 0, no reflection, no final XOR. For tests only; the source names no CRC. -/
def xmodem (d : List Byte) : U16 := d.foldl xmodemByte 0

/-- `crc16` of an instance: total, and a function of the bytes alone (R52). -/
def CrcUnit.crc16 : CrcUnit → List Byte → U16
  | .uninterpreted, d => Config.crc16 d
  | .testXmodem, d => xmodem d

end Sys2Proof.Machine
end

