-- ==== Sys2Proof/Machine/Flags.lean ====
section
/-! DEFINITION. The decisions of the block: the error flag, the status code, the size validator, the CRC
comparator, the address filter (10_state R28, 30_encoding R81, 40_datapath_units R102 to R104). All compares are
unsigned (R110). -/

namespace Sys2Proof.Machine

/-- The numeric code of a status (30_encoding R81, D5). -/
def Status.code : Status → BitVec 3
  | .notInitialized => 0
  | .ready => 1
  | .allocationFailure => 2
  | .packetOverSize => 3
  | .crcError => 4
  | .badHeader => 5
  | .badPacket => 6

/-- `has_error = (STATUS != Ready)` (10_state R28). -/
def Status.hasError (st : Status) : Bool := decide (st ≠ .ready)

/-- `OverSizePoll` (R102). -/
def overSizePoll (size : U16) : Bool := decide (Config.maxPacketSize < size)

/-- `OverSizeRecv` (R102). -/
def overSizeRecv (size capacity : U16) : Bool :=
  decide (Config.maxPacketSize < size) || decide (capacity < size)

/-- `CrcOK` (R103): over the payload bytes only. -/
def crcOK (u : CrcUnit) (p : List Byte) (crc : U16) : Bool := decide (u.crc16 p = crc)

/-- `LOCAL_ID` as a byte (10_state R22). -/
def localByte (id : Fin 255) : Byte := BitVec.ofNat 8 id.val

/-- `AddrAccept` (R104). -/
def addrAccept (id : Fin 255) (dst : Byte) : Bool :=
  decide (dst = localByte id) || decide (dst = Config.broadcastId)

end Sys2Proof.Machine
end

