-- ==== Sys2Proof/Machine/Operands.lean ====
section
/-! DEFINITION. Operand forms: the six header bytes, and what comes with a command word
(30_encoding R70 to R72, R79, R82; 40_datapath_units R100, R101). -/

namespace Sys2Proof.Machine

/-- The low byte of a 16-bit field. -/
def lowByte (v : U16) : Byte := v.extractLsb' 0 8

/-- The high byte of a 16-bit field. -/
def highByte (v : U16) : Byte := v.extractLsb' 8 8

/-- A 16-bit field from its two bytes in wire order (R72). -/
def fieldOfBytes : WireOrder → Byte → Byte → U16
  | .little, first, second => second ++ first
  | .big, first, second => first ++ second

/-- The two bytes of a 16-bit field in wire order (R72). -/
def bytesOfField : WireOrder → U16 → List Byte
  | .little, v => [lowByte v, highByte v]
  | .big, v => [highByte v, lowByte v]

/-- `ParseHeader` (R100): six bytes always give a header; other lengths are no header. -/
def parseHeader : List Byte → Option Header
  | [b0, b1, b2, b3, b4, b5] =>
    some { src := b0, dst := b1,
           size := fieldOfBytes Config.wireOrder b2 b3,
           crc := fieldOfBytes Config.wireOrder b4 b5 }
  | _ => none

/-- `BuildHeader` (R101). -/
def buildHeader (h : Header) : List Byte :=
  h.src :: h.dst :: (bytesOfField Config.wireOrder h.size ++ bytesOfField Config.wireOrder h.crc)

/-- The kinds of response (30_encoding R80). -/
inductive ResponseKind where
  | bare
  | oneBit
  | statusCode
  | received
  deriving DecidableEq, Repr

/-- The kind of response of a command word, reserved or not: that of its operation (R80: a rejected command
"ends with the same kind of response as an accepted one"); an operation code without one gets a bare completion
(log 7). -/
def responseKind (c : Word32) : ResponseKind :=
  if opField c = 0x1 then .oneBit
  else if opField c = 0x2 then .statusCode
  else if opField c = 0x5 then .received
  else .bare

/-- Hand over the byte space that comes with a command: `SRC` with a SEND, `CBUF` with a RECV (20_memory R42, D2). -/
def State.handOver (s : State) (i : Instr) (space : Memory) : State :=
  match i with
  | .recv _ => { s with cbuf := space }
  | .send _ _ => { s with src := space }
  | .begin => s
  | .haserr => s
  | .geterr => s
  | .seth _ => s
  | .poll => s
  | .recvl _ => s

end Sys2Proof.Machine
end

