-- ==== Sys2Proof/Machine/Transport.lean ====
section
/-! DEFINITION. What a transport and an allocator answer (20_memory R44 to R50, R63). Each function gives nothing
while the collaborator has not answered. -/

namespace Sys2Proof.Machine

/-- `T.begin(LINE_RATE)` (R44): taken or not yet. -/
def Transport.takeBegin : Transport → Option Transport
  | .answers a =>
    match a.begins with
    | 0 => none
    | n + 1 => some (.answers { a with begins := n })
  | .queue q => some (.queue q)
  | .blocking q => some (.blocking q)

/-- `T.available()` (R45, R63). -/
def Transport.available : Transport → Option (Bool × Transport)
  | .answers a =>
    match a.avail with
    | [] => none
    | b :: rest => some (b, .answers { a with avail := rest })
  | .queue q => some (!q.isEmpty, .queue q)
  | .blocking q => some (!q.isEmpty, .blocking q)

/-- `T.readBytes(n)` (R46, R63): `k` and the bytes handed over. QueueTransport answers at once with what it has;
BlockingTransport answers only once it has `n` bytes. -/
def Transport.readBytes (n : U16) : Transport → Option (U16 × List Byte × Transport)
  | .answers a =>
    match a.readBytes with
    | [] => none
    | (k, d) :: rest => some (k, d, .answers { a with readBytes := rest })
  | .queue q => some (BitVec.ofNat 16 (min n.toNat q.length), q.take n.toNat, .queue (q.drop n.toNat))
  | .blocking q =>
    if n.toNat ≤ q.length then some (n, q.take n.toNat, .blocking (q.drop n.toNat)) else none

/-- `T.read()` (R47, R63): a byte, or an answer without one. -/
def Transport.read : Transport → Option (Option Byte × Transport)
  | .answers a =>
    match a.reads with
    | [] => none
    | v :: rest => some (v, .answers { a with reads := rest })
  | .queue [] => some (none, .queue [])
  | .queue (b :: q) => some (some b, .queue q)
  | .blocking [] => none
  | .blocking (b :: q) => some (some b, .blocking q)

/-- `T.beginTransmission()` (R48): taken or not yet. -/
def Transport.takeBeginTransmission : Transport → Option Transport
  | .answers a =>
    match a.txBegins with
    | 0 => none
    | n + 1 => some (.answers { a with txBegins := n })
  | .queue q => some (.queue q)
  | .blocking q => some (.blocking q)

/-- `T.write(d)` (R48): taken or not yet. -/
def Transport.takeWrite : Transport → Option Transport
  | .answers a =>
    match a.writes with
    | 0 => none
    | n + 1 => some (.answers { a with writes := n })
  | .queue q => some (.queue q)
  | .blocking q => some (.blocking q)

/-- `T.endTransmission()` (R48): taken or not yet. -/
def Transport.takeEndTransmission : Transport → Option Transport
  | .answers a =>
    match a.txEnds with
    | 0 => none
    | n + 1 => some (.answers { a with txEnds := n })
  | .queue q => some (.queue q)
  | .blocking q => some (.blocking q)

/-- Up to `n` requests `T.read()`, one after the other, as far as the transport answers: the answers, and the
transport after them. -/
def Transport.drain : Nat → Transport → List (Option Byte) × Transport
  | 0, t => ([], t)
  | n + 1, t =>
    match t.read with
    | none => ([], t)
    | some (v, t') =>
      match Transport.drain n t' with
      | (vs, t'') => (v :: vs, t'')

/-- Bytes reaching a node's receive stream (R63). What a transport of free answers hands over is in its answers. -/
def Transport.deliver (d : List Byte) : Transport → Transport
  | .answers a => .answers a
  | .queue q => .queue (q ++ d)
  | .blocking q => .blocking (q ++ d)

/-- `A.acquire(n)` (R50): the allocator alone decides. -/
def Allocator.acquire : Allocator → Option (AllocAnswer × Allocator)
  | .answers [] => none
  | .answers (r :: rest) => some (r, .answers rest)
  | .alwaysOk h => some (.ok h, .alwaysOk (h + 1))

end Sys2Proof.Machine
end

