-- ==== Sys2Proof/Machine/Ops.lean ====
section
/-! DEFINITION. The shared operations: recording events, ending an operation, the error exit, rejection, the command
gate, and the units that ask a collaborator (40_datapath_units R105 to R109). -/

namespace Sys2Proof.Machine

/-! ## The record of the run -/

/-- Append interface events to `TRACE` (00_scope R13). -/
def State.emit (s : State) (es : List Event) : State := { s with trace := s.trace ++ es }

/-- Move `PHASE` to a step and issue that step's request (10_state R27). -/
def State.request (s : State) (p : Phase) (r : Request) : State :=
  { s with phase := p, trace := s.trace ++ [.request r] }

/-- Give a caller its response (30_encoding R80). -/
def State.respond (s : State) (c : Caller) (r : Response) : State :=
  { s with responses := s.responses ++ [(c, r)] }

/-! ## The end of an operation -/

/-- Where `PHASE` goes when a caller's operation ends: a nested one goes back to the dispatch (42_poll R144). -/
def Caller.restPhase : Caller → Phase
  | .host => .idle
  | .handler => .dispatch

/-- End an operation (`done` and `return`, 00_scope R15; 70_reset_and_hazards R261). -/
def State.finish (s : State) (c : Caller) (r : Response) : State :=
  { s with phase := c.restPhase, responses := s.responses ++ [(c, r)] }

/-- `fail S` (40_datapath_units R108; 60_exceptions R207): the one way an error is taken. `STATUS` is overwritten and
the operation ends with its response; nothing else is saved, and control goes back to the caller. Only the host's
operations have error paths (R212). -/
def State.fail (s : State) (st : Status) (r : Response) : State :=
  { s with status := st, phase := .idle, responses := s.responses ++ [(.host, r)] }

/-- The response of a RECV whose `header_out` is unspecified: a free value (43_receive R162, D17). DESIGN CHOICE: it is a
function of the node's source and of its count of draws, so no two draws of a node and no two nodes of a bus are tied,
while two states off a bus with the same source and count get the same value (unsafe to compare them; log 6). -/
def State.unspecifiedRecv (s : State) : Response := .recv 0 (Config.freeHeaderOut s.freeSource s.draws)

/-- Count a free value as drawn (log 6). -/
def State.drawn (s : State) : State := { s with draws := s.draws + 1 }

/-- `fail S` of a RECV whose `header_out` is unspecified (R108, R162). -/
def State.failRecv (s : State) (st : Status) : State :=
  (s.fail st s.unspecifiedRecv).drawn

/-- Reject a command: it completes with the response of its kind, issues no event and writes no register
(30_encoding R80, R82; 40_datapath_units R109). The model records the rejection by name (log 8). -/
def State.reject (s : State) (c : Caller) (why : Rejection) (k : ResponseKind) : State :=
  match k with
  | .bare => { s with responses := s.responses ++ [(c, .done)], rejected := s.rejected ++ [why] }
  | .oneBit =>
    { s with responses := s.responses ++ [(c, .hasErr (Config.freeBit s.freeSource s.draws))],
             rejected := s.rejected ++ [why], draws := s.draws + 1 }
  | .statusCode =>
    { s with responses := s.responses ++ [(c, .getErr (Config.freeStatus s.freeSource s.draws).code)],
             rejected := s.rejected ++ [why], draws := s.draws + 1 }
  | .received =>
    { s with responses := s.responses ++ [(c, s.unspecifiedRecv)],
             rejected := s.rejected ++ [why], draws := s.draws + 1 }

/-! ## The command gate -/

/-- Who may issue a command now: the host when `PHASE = IDLE`, the handler when `PHASE = DISPATCH`, otherwise nobody
(70_reset_and_hazards R253). -/
def Phase.caller : Phase → Option Caller
  | .idle => some .host
  | .dispatch => some .handler
  | _ => none

/-- Take a command that both callers may issue (42_poll R144). -/
def State.accept (s : State) (k : Caller → Result) : Result :=
  match s.phase.caller with
  | none => .refused .commandWhileBusy
  | some c => k c

/-- Take a command that only the host may issue; from the handler it is rejected (42_poll R144). -/
def State.acceptHost (s : State) (nested : Rejection) (kind : ResponseKind) (k : Result) : Result :=
  match s.phase.caller with
  | none => .refused .commandWhileBusy
  | some .handler => .next (s.reject .handler nested kind)
  | some .host => k

/-- The not-initialized gate (40_datapath_units R109). -/
def State.gate (s : State) (c : Caller) (kind : ResponseKind) (k : Result) : Result :=
  if s.status = .notInitialized then .next (s.reject c .notInitialized kind) else k

/-! ## Units that ask the transport -/

/-- Await the answer to `T.readBytes(n)` (20_memory R46). No answer yet: the engine waits where it is. An answer that
breaks the contract is refused (D26). -/
def State.awaitReadBytes (s : State) (n : U16) (k : U16 → List Byte → State → Result) : Result :=
  match s.transport.readBytes n with
  | none => .next s
  | some (got, d, t) =>
    if got ≤ n ∧ d.length = got.toNat then
      k got d { s with transport := t, trace := s.trace ++ [.answer (.tReadBytes got d)] }
    else .refused .transportContract

/-- The second half of `ReadHeader` (R105): a short read takes the error exit `bad`, a whole one loads `HDR`. The
answer having passed the contract of R46, its bytes are a header exactly when `k = 6`. -/
def State.awaitHeader (s : State) (bad : State → State) (k : State → Result) : Result :=
  s.awaitReadBytes Config.headerSize fun _ d s' =>
    match parseHeader d with
    | none => .next (bad s')
    | some h => k { s' with hdr := h }

/-- The events of a drain's answers: after each answer the next `T.read()` is issued, unless that answer was the
drain's last. `left` is how many requests are still unanswered. -/
def drainEvents (left : Nat) : List (Option Byte) → List Event
  | [] => []
  | [v] => if left = 0 then [.answer (.tRead v)] else [.answer (.tRead v), .request .tRead]
  | v :: vs => .answer (.tRead v) :: .request .tRead :: drainEvents left vs

/-- Begin `Drain(n)` (R106): the first request, if there is one. -/
def State.beginDrain (s : State) (p : Phase) (n : U16) : State :=
  { s with phase := p, drainLeft := n,
           trace := s.trace ++ (if n = 0 then [] else [.request .tRead]) }

/-- Go on with a drain as far as the transport answers (R106): every answer is dropped, and none ends it early.
`fin` follows when no request is left. -/
def State.awaitDrain (s : State) (fin : State → State) : Result :=
  match s.transport.drain s.drainLeft.toNat with
  | (vs, t) =>
    let left := s.drainLeft.toNat - vs.length
    let s' := { s with transport := t, drainLeft := BitVec.ofNat 16 left,
                       trace := s.trace ++ drainEvents left vs }
    if left = 0 then .next (fin s') else .next s'

/-! ## The payload buffer -/

/-- `A.release(BUFH)` (20_memory R50, D30): no answer, so no wait (log 10); `PBUF` is gone. -/
def State.releaseBuffer (s : State) : State :=
  match s.bufh with
  | none => s
  | some h => { s with bufh := none, pbuf := [], trace := s.trace ++ [.request (.aRelease h)] }

/-! ## The header of a SEND -/

/-- The header a SEND works on: `HDR`, or a value of its own when nested (42_poll R144, 44_send R182). -/
def State.sendHdr (s : State) : Caller → Header
  | .host => s.hdr
  | .handler => s.nestedHdr

/-- Load the header of a SEND (44_send R180 step 1, R182). -/
def State.loadSendHdr (s : State) (c : Caller) (h : Header) : State :=
  match c with
  | .host => { s with hdr := h }
  | .handler => { s with nestedHdr := h }

/-- Issue `T.write(d)` (20_memory R48): the bytes go to the end of `TX` (log 19). -/
def State.requestWrite (s : State) (p : Phase) (d : List Byte) : State :=
  { s with phase := p, tx := s.tx ++ d, trace := s.trace ++ [.request (.tWrite d)] }

end Sys2Proof.Machine
end

