-- ==== Sys2Proof/Machine/Lifecycle.lean ====
section
/-! DEFINITION. The lifecycle and status operations: BEGIN, HASERR, GETERR, SETH (41_lifecycle_status), and the
reserved RECVL (43_receive R170). -/

namespace Sys2Proof.Machine

/-- BEGIN once `T.begin` is taken (R120). -/
def beginAwait (s : State) : Result :=
  match s.transport.takeBegin with
  | none => .next s
  | some t => .next (State.finish { s with transport := t, status := .ready } .host .done)

/-- BEGIN (R120): no gate; rejected from the handler (42_poll R144). -/
def execBegin (s : State) : Result :=
  s.acceptHost .nestedBegin .bare
    (beginAwait (s.request .begin1 (.tBegin Config.lineRate)))

/-- HASERR (R121): a pure accessor, open to both callers. -/
def execHaserr (s : State) : Result :=
  s.accept fun c => .next (s.respond c (.hasErr s.status.hasError))

/-- GETERR (R122): a pure accessor, open to both callers. -/
def execGeterr (s : State) : Result :=
  s.accept fun c => .next (s.respond c (.getErr s.status.code))

/-- SETH (R123): registers the token, whatever its value; open to both callers. -/
def execSeth (ref : U16) (s : State) : Result :=
  s.accept fun c => .next (State.respond { s with handlerRef := ref, handlerValid := true } c .done)

/-- RECVL (R170, 30_encoding R82): reserved; completes with no effect. The bits below `op` are not read. -/
def execRecvl (_rest : BitVec 28) (s : State) : Result :=
  s.accept fun c => .next (s.reject c .legacyRecv .bare)

end Sys2Proof.Machine
end

