-- ==== Sys2Proof/Machine/Poll.lean ====
section
/-! DEFINITION. POLL (42_poll R140 to R147), step by step in the order of R140. The part of a step after its request
is a definition of its own, so that an engine that waits in the step goes on from there. -/

namespace Sys2Proof.Machine

/-- Step 6: release the buffer and end (R140). -/
def pollStep6 (s : State) : Result := .next (s.releaseBuffer.finish .host .done)

/-- The dispatch once `H.handle` is issued: wait until the handler returns (R143). A nested command of the handler is
a step of its own (R144). -/
def awaitHandler (s : State) : Result :=
  match s.handler with
  | .ret :: rest => pollStep6 { s with handler := rest, trace := s.trace ++ [.answer .hReturn] }
  | .command _ :: _ => .next s
  | [] => .next s

/-- Step 5: the address filter and the dispatch (R140, R145, R147). -/
def pollStep5 (s : State) : Result :=
  if addrAccept s.localId s.hdr.dst = true ∧ s.handlerValid = true then
    match s.pbuf.readBytes 0 s.hdr.size.toNat with
    | none => .refused (.bufferByteMissing .pbuf)
    | some p => awaitHandler (s.request .dispatch (.hHandle s.handlerRef s.hdr p))
  else pollStep6 s

/-- Step 4 once `T.readBytes(HDR.size)` is issued: `ReadPayload` into `PBUF` (R140, 40_datapath_units R107). -/
def pollStep4 (s : State) : Result :=
  s.awaitReadBytes s.hdr.size fun k d s' =>
    let s'' : State := { s' with pbuf := s'.pbuf.writeBytes 0 d }
    if k < s''.hdr.size then .next (s''.releaseBuffer.fail .badPacket .done) else pollStep5 s''

/-- Step 3 once `A.acquire(HDR.size)` is issued (R140, 20_memory R50). -/
def pollStep3 (s : State) : Result :=
  match s.allocator.acquire with
  | none => .next s
  | some (r, a) =>
    let s' : State := { s with allocator := a, trace := s.trace ++ [.answer (.aAcquire r)] }
    match r with
    | .fail => .next (s'.fail .allocationFailure .done)
    | .ok h =>
      pollStep4 (State.request { s' with bufh := some h, pbuf := [] } .poll4 (.tReadBytes s'.hdr.size))

/-- Step 2 once its drain has begun (R140): nothing is acquired and nothing dispatched. -/
def pollDrain (s : State) : Result := s.awaitDrain fun s' => s'.finish .host .done

/-- Step 2: the size check; the status is written before the drain (R140, 60_exceptions R202). -/
def pollStep2 (s : State) : Result :=
  if overSizePoll s.hdr.size = true then
    pollDrain (State.beginDrain { s with status := .packetOverSize } .poll2 s.hdr.size)
  else pollStep3 (s.request .poll3 (.aAcquire s.hdr.size))

/-- Step 1 once `T.readBytes(6)` is issued: `ReadHeader` (R140, 40_datapath_units R105). -/
def pollStep1 (s : State) : Result :=
  s.awaitHeader (fun s' => s'.fail .badHeader .done) pollStep2

/-- Step 0 once `T.available()` is issued (R140). -/
def pollStep0 (s : State) : Result :=
  match s.transport.available with
  | none => .next s
  | some (a, t) =>
    let s' : State := { s with transport := t, trace := s.trace ++ [.answer (.tAvailable a)] }
    if a = true then pollStep1 (s'.request .poll1 (.tReadBytes Config.headerSize))
    else .next (s'.finish .host .done)

/-- POLL (R140): the gate, then the steps as far as the collaborators answer. -/
def execPoll (s : State) : Result :=
  s.acceptHost .nestedPoll .bare
    (s.gate .host .bare (pollStep0 (s.request .poll0 .tAvailable)))

end Sys2Proof.Machine
end

