-- ==== Sys2Proof/Machine/Recv.lean ====
section
/-! DEFINITION. RECV (43_receive R160 to R165), step by step in the order of R160. -/

namespace Sys2Proof.Machine

/-- Step 4: compare the CRC of the payload in `CBUF` (R160). -/
def recvStep4 (s : State) : Result :=
  match s.cbuf.readBytes 0 s.hdr.size.toNat with
  | none => .refused (.bufferByteMissing .cbuf)
  | some p =>
    if crcOK s.crcUnit p s.hdr.crc = true then .next (s.finish .host (.recv s.hdr.size s.hdr))
    else .next (s.fail .crcError (.recv 0 s.hdr))

/-- Step 3 once `T.readBytes(HDR.size)` is issued: `ReadPayload` into `CBUF` (R160, 40_datapath_units R107). -/
def recvStep3 (s : State) : Result :=
  s.awaitReadBytes s.hdr.size fun k d s' =>
    let s'' : State := { s' with cbuf := s'.cbuf.writeBytes 0 d }
    if k < s''.hdr.size then .next (s''.fail .badPacket (.recv 0 s''.hdr)) else recvStep4 s''

/-- Step 2 once its drain has begun (R160): `CBUF` is untouched. -/
def recvDrain (s : State) : Result := s.awaitDrain fun s' => s'.finish .host (.recv 0 s'.hdr)

/-- Step 2: the size and capacity check, one test (R160, 40_datapath_units R102). -/
def recvStep2 (s : State) : Result :=
  if overSizeRecv s.hdr.size s.cmdArg = true then
    recvDrain (State.beginDrain { s with status := .packetOverSize } .recv2 s.hdr.size)
  else recvStep3 (s.request .recv3 (.tReadBytes s.hdr.size))

/-- Step 1 once `T.readBytes(6)` is issued: `ReadHeader` (R160, 40_datapath_units R105); after a short read
`header_out` is unspecified (R162). -/
def recvStep1 (s : State) : Result :=
  s.awaitHeader (fun s' => s'.failRecv .badHeader) recvStep2

/-- RECV (R160): the gate, then the steps as far as the transport answers. -/
def execRecv (capacity : U16) (s : State) : Result :=
  s.acceptHost .nestedRecv .received
    (s.gate .host .received
      (recvStep1 (State.request { s with cmdArg := capacity } .recv1 (.tReadBytes Config.headerSize))))

end Sys2Proof.Machine
end

