-- ==== Sys2Proof/Machine/Send.lean ====
section
/-! DEFINITION. SEND (44_send R180 to R183), step by step in the order of R180, for both callers
(42_poll R144). -/

namespace Sys2Proof.Machine

/-- Step 5 once `T.endTransmission()` is issued (R180): `STATUS` is not written. -/
def sendStep5 (c : Caller) (s : State) : Result :=
  match s.transport.takeEndTransmission with
  | none => .next s
  | some t => .next (State.finish { s with transport := t } c .done)

/-- Step 4 once the payload's `T.write` is issued (R180). -/
def sendStep4 (c : Caller) (s : State) : Result :=
  match s.transport.takeWrite with
  | none => .next s
  | some t => sendStep5 c (State.request { s with transport := t } (.send5 c) .tEndTransmission)

/-- Step 3 once the header's `T.write` is issued (R180); the payload write follows even when it is empty (D18). -/
def sendStep3 (c : Caller) (s : State) : Result :=
  match s.transport.takeWrite with
  | none => .next s
  | some t =>
    match s.src.readBytes 0 (s.sendHdr c).size.toNat with
    | none => .refused (.bufferByteMissing .src)
    | some p => sendStep4 c (State.requestWrite { s with transport := t } (.send4 c) p)

/-- Step 2 once `T.beginTransmission()` is issued (R180). -/
def sendStep2 (c : Caller) (s : State) : Result :=
  match s.transport.takeBeginTransmission with
  | none => .next s
  | some t => sendStep3 c (State.requestWrite { s with transport := t } (.send3 c) (buildHeader (s.sendHdr c)))

/-- Step 1: the payload and the header (R180). The CRC is over the payload only, and no size is checked (R181). -/
def sendStep1 (c : Caller) (s : State) : Result :=
  match s.src.readBytes 0 s.cmdArg.toNat with
  | none => .refused (.bufferByteMissing .src)
  | some p =>
    sendStep2 c
      (State.request
        (s.loadSendHdr c
          { src := localByte s.localId, dst := s.cmdDst, size := s.cmdArg, crc := s.crcUnit.crc16 p })
        (.send2 c) .tBeginTransmission)

/-- SEND (R180): open to both callers; the gate, then the steps as far as the transport takes them. -/
def execSend (dst : Byte) (size : U16) (s : State) : Result :=
  s.accept fun c =>
    s.gate c .bare
      (sendStep1 c { s with cmdDst := dst, cmdArg := size, phase := .send1 c })

end Sys2Proof.Machine
end

