-- ==== Sys2Proof/Machine/Dispatch.lean ====
section
/-! DEFINITION. The meaning of every operation, one arm each. -/

namespace Sys2Proof.Machine

def exec (i : Instr) (s : State) : Host.Outcome State Fault Refusal :=
  match i with
  | .begin => Sys2Proof.Machine.execBegin s
  | .haserr => Sys2Proof.Machine.execHaserr s
  | .geterr => Sys2Proof.Machine.execGeterr s
  | .seth ref => Sys2Proof.Machine.execSeth ref s
  | .poll => Sys2Proof.Machine.execPoll s
  | .recv capacity => Sys2Proof.Machine.execRecv capacity s
  | .send dst size => Sys2Proof.Machine.execSend dst size s
  | .recvl rest => Sys2Proof.Machine.execRecvl rest s

end Sys2Proof.Machine
end

