-- ==== Sys2Proof/Machine/Sequencer.lean ====
section
/-! DEFINITION. The sequencer: going on from a step of a running operation, and taking a command
(10_state R27, 70_reset_and_hazards R251, R253). -/

namespace Sys2Proof.Machine

/-- The channel on which the engine waits, when the answer it awaits is not there (R251). -/
def State.waitingOn (s : State) : Option Channel :=
  match s.phase with
  | .idle => none
  | .begin1 => if s.transport.takeBegin = none then some .tBegin else none
  | .poll0 => if s.transport.available = none then some .tAvailable else none
  | .poll1 => if s.transport.readBytes Config.headerSize = none then some .tReadBytes else none
  | .poll2 => if s.drainLeft ≠ 0 ∧ s.transport.read = none then some .tRead else none
  | .poll3 => if s.allocator.acquire = none then some .aAcquire else none
  | .poll4 => if s.transport.readBytes s.hdr.size = none then some .tReadBytes else none
  | .poll5 => none
  | .dispatch => if s.handler = [] then some .hHandle else none
  | .poll6 => none
  | .recv1 => if s.transport.readBytes Config.headerSize = none then some .tReadBytes else none
  | .recv2 => if s.drainLeft ≠ 0 ∧ s.transport.read = none then some .tRead else none
  | .recv3 => if s.transport.readBytes s.hdr.size = none then some .tReadBytes else none
  | .recv4 => none
  | .send1 _ => none
  | .send2 _ => if s.transport.takeBeginTransmission = none then some .tBeginTransmission else none
  | .send3 _ => if s.transport.takeWrite = none then some .tWrite else none
  | .send4 _ => if s.transport.takeWrite = none then some .tWrite else none
  | .send5 _ => if s.transport.takeEndTransmission = none then some .tEndTransmission else none

/-- Go on with the running operation from the step at which `PHASE` stands (R27). -/
def resume (s : State) : Result :=
  match s.phase with
  | .idle => .fault .atRest
  | .begin1 => beginAwait s
  | .poll0 => pollStep0 s
  | .poll1 => pollStep1 s
  | .poll2 => pollDrain s
  | .poll3 => pollStep3 s
  | .poll4 => pollStep4 s
  | .poll5 => pollStep5 s
  | .dispatch => awaitHandler s
  | .poll6 => pollStep6 s
  | .recv1 => recvStep1 s
  | .recv2 => recvDrain s
  | .recv3 => recvStep3 s
  | .recv4 => recvStep4 s
  | .send1 c => sendStep1 c s
  | .send2 c => sendStep2 c s
  | .send3 c => sendStep3 c s
  | .send4 c => sendStep4 c s
  | .send5 c => sendStep5 c s

/-- Take a command: decode its word, hand its byte space over and run it; a reserved word is rejected by name
(30_encoding R82). -/
def runCommand (c : Command) (s : State) : Result :=
  match decode c.word with
  | .instr i => exec i (s.handOver i c.space)
  | .reserved why =>
    s.accept fun who => .next (s.reject who (.reservedWord why) (responseKind c.word))

/-- The engine's next step. At rest it takes the host's next command; in a dispatch, the handler's next move; in any
other step it goes on if its answer is there. While that is not there it has no step (R251, R253, R261). -/
def nextMove (s : State) : Result :=
  match s.waitingOn with
  | some ch => .fault (.waiting ch)
  | none =>
    match s.phase, s.cmds, s.handler with
    | .idle, [], _ => .fault .atRest
    | .idle, c :: rest, _ => runCommand c { s with cmds := rest }
    | .dispatch, _, .command c :: rest => runCommand c { s with handler := rest }
    | _, _, _ => resume s

/-- Put a command word on the channel that `step` takes its next command from: the handler's during a dispatch,
otherwise the host's, with the engine at rest (R253). No byte space comes with it. -/
def placeWord (s : State) (w : Word32) : State :=
  match s.phase with
  | .dispatch => { s with handler := .command { word := w, space := [] } :: s.handler }
  | _ => { s with phase := .idle, cmds := { word := w, space := [] } :: s.cmds }

end Sys2Proof.Machine
end

