-- ==== Sys2Proof/Machine/Step.lean ====
section
/-! DEFINITION. One step of the engine. -/

namespace Sys2Proof.Machine

/-- One step of the engine (20_memory R43): it runs until the operation ends or another agent must move. -/
def step (s : State) : Host.Outcome State Fault Refusal := nextMove s

/-- `s` with one command word placed where `step` takes its next command (log 5). A command word has 32 bits, so the
table's bits are all of it. -/
def State.withFetchWord (s : State) (_nbits w : Nat) : State := placeWord s (BitVec.ofNat 32 w)

end Sys2Proof.Machine
end

