-- ==== Sys2Proof/Machine/Bus.lean ====
section
/-! DEFINITION. Several nodes on the reference bus (20_memory R63, 60_exceptions R217): each has its own state, and
what one writes is appended to the queue of every other. `MAX_PACKET_SIZE` and `WIRE_ORDER` are one constant for all, and
the bus holds the one `crc16` of its nodes (00_scope R9). -/

namespace Sys2Proof.Machine

/-- The nodes of one bus, and the one `crc16` they all have (00_scope R9). -/
structure Bus where
  crcUnit : CrcUnit
  nodes : List State
  deriving DecidableEq, Repr

/-- A node as it stands on a bus: it has the bus's `crc16` (00_scope R9), and draws its free values under its own
number (log 6). -/
def State.onBus (u : CrcUnit) (i : Nat) (s : State) : State := { s with crcUnit := u, freeSource := i }

/-- Node `i` of a bus, if there is one. -/
def Bus.node (b : Bus) (i : Nat) : Option State := (b.nodes[i]?).map (State.onBus b.crcUnit i)

/-- Bytes another node wrote reach this node's receive stream (R63). -/
def State.hear (s : State) (d : List Byte) : State := { s with transport := s.transport.deliver d }

/-- Node `i` becomes `t`, and every other node hears `d`; `j` is the number of the first node of the list. -/
def busNodesAfter (i : Nat) (t : State) (d : List Byte) : Nat → List State → List State
  | _, [] => []
  | j, u :: rest => (if j = i then t else u.hear d) :: busNodesAfter i t d (j + 1) rest

/-- A step of node `i`, if there is such a node: the bytes it adds to its `TX` reach every other node and not itself
(R63). -/
def Bus.stepNode (b : Bus) (i : Nat) : Option (Host.Outcome Bus Fault Refusal) :=
  match b.node i with
  | none => none
  | some s =>
    match step s with
    | .next t => some (.next { b with nodes := busNodesAfter i t (t.tx.drop s.tx.length) 0 b.nodes })
    | .fault f => some (.fault f)
    | .refused r => some (.refused r)

end Sys2Proof.Machine
end

