-- ==== Sys2Proof/Machine/Environment.lean ====
section
/-! DEFINITION. The moves of the agents around the engine (20_memory R43, 70_reset_and_hazards R262): each only adds
to the data the engine will meet. What the agents do with what they are given is theirs. -/

namespace Sys2Proof.Machine

/-- A move of the host, the handler, the transport or the allocator. -/
inductive Move where
  /-- The host issues a command with its byte space (R253). -/
  | hostCommand (c : Command)
  /-- The handler issues a nested command, or returns (42_poll R144). -/
  | handlerMove (m : HandlerMove)
  /-- Bytes reach the queue of a reference transport (R63). -/
  | lineBytes (d : List Byte)
  /-- The transport takes a `T.begin`. -/
  | takesBegin
  /-- The transport answers `T.available()`. -/
  | answersAvailable (a : Bool)
  /-- The transport answers `T.readBytes(n)`, with anything of the answer's type (R41, R46). -/
  | answersReadBytes (k : U16) (d : List Byte)
  /-- The transport answers `T.read()` (R47). -/
  | answersRead (v : Option Byte)
  /-- The transport takes a `T.beginTransmission()`. -/
  | takesBeginTransmission
  /-- The transport takes a `T.write`. -/
  | takesWrite
  /-- The transport takes a `T.endTransmission()`. -/
  | takesEndTransmission
  /-- The allocator answers `A.acquire(n)` (R50). -/
  | answersAcquire (r : AllocAnswer)
  deriving DecidableEq, Repr

/-- The queue of a reference transport after a move (R63). -/
def Move.onQueue (m : Move) (q : List Byte) : List Byte :=
  match m with
  | .lineBytes d => q ++ d
  | _ => q

/-- The answers left to give after a move: one more on its channel. -/
def TransportAnswers.give (a : TransportAnswers) (m : Move) : TransportAnswers :=
  match m with
  | .takesBegin => { a with begins := a.begins + 1 }
  | .answersAvailable b => { a with avail := a.avail ++ [b] }
  | .answersReadBytes k d => { a with readBytes := a.readBytes ++ [(k, d)] }
  | .answersRead v => { a with reads := a.reads ++ [v] }
  | .takesBeginTransmission => { a with txBegins := a.txBegins + 1 }
  | .takesWrite => { a with writes := a.writes + 1 }
  | .takesEndTransmission => { a with txEnds := a.txEnds + 1 }
  | .hostCommand _ | .handlerMove _ | .lineBytes _ | .answersAcquire _ => a

/-- A transport of free answers gives one more; a reference transport answers by its own rule (R63). -/
def Transport.give (t : Transport) (m : Move) : Transport :=
  match t with
  | .queue q => .queue (m.onQueue q)
  | .blocking q => .blocking (m.onQueue q)
  | .answers a => .answers (a.give m)

/-- An allocator of free answers gives one more. -/
def Allocator.give (al : Allocator) (m : Move) : Allocator :=
  match al with
  | .alwaysOk h => .alwaysOk h
  | .answers l => (match m with | .answersAcquire r => .answers (l ++ [r]) | _ => .answers l)

/-- The state after a move of another agent. -/
def State.environment (s : State) (m : Move) : State :=
  { s with
      transport := s.transport.give m
      allocator := s.allocator.give m
      cmds := (match m with | .hostCommand c => s.cmds ++ [c] | _ => s.cmds)
      handler := (match m with | .handlerMove h => s.handler ++ [h] | _ => s.handler) }

end Sys2Proof.Machine
end

