-- ==== Sys2Proof/Safety.lean ====
section
/-! DEFINITION. What claims are stated in: the disciplines that a trace of interface events keeps, and the invariants
of a state (10_state R34; 20_memory R42, R50, R59; 40_datapath_units R102, R109; 42_poll R143, R144). -/

namespace Sys2Proof.Machine

/-- A property of the next state, if there is one. -/
def AllNext (P : State → Prop) : Result → Prop
  | .next t => P t
  | .fault _ => True
  | .refused _ => True

/-! ## Phases -/

/-- The steps in which the engine holds a payload buffer: from the granted acquire of a POLL to its release, a nested
SEND included (10_state R26). -/
def Phase.holdsBuffer : Phase → Bool
  | .poll4 | .poll5 | .dispatch | .poll6 => true
  | .send1 .handler | .send2 .handler | .send3 .handler | .send4 .handler | .send5 .handler => true
  | _ => false

/-- The steps in which `H.handle` has been issued and the handler has not returned (42_poll R143, R144). -/
def Phase.inDispatch : Phase → Bool
  | .dispatch => true
  | .send1 .handler | .send2 .handler | .send3 .handler | .send4 .handler | .send5 .handler => true
  | _ => false

/-- The steps in which a transmission bracket has been opened and its end not yet asked for (20_memory R59). -/
def Phase.inBracket : Phase → Bool
  | .send2 _ | .send3 _ | .send4 _ => true
  | _ => false

/-- The steps of a POLL after its size check, and of a nested SEND (42_poll R140). -/
def Phase.pollChecked : Phase → Bool
  | .poll3 | .poll4 | .poll5 | .dispatch | .poll6 => true
  | .send1 .handler | .send2 .handler | .send3 .handler | .send4 .handler | .send5 .handler => true
  | _ => false

/-- The steps of a RECV after its size check (43_receive R160). -/
def Phase.recvChecked : Phase → Bool
  | .recv3 | .recv4 => true
  | _ => false

/-- The steps behind the not-initialized gate (40_datapath_units R109). -/
def Phase.gated : Phase → Bool
  | .idle | .begin1 => false
  | _ => true

/-! ## Disciplines of a trace

Each reads the events in order and says what is open after them; `none` means that the discipline was broken. -/

/-- Transmission brackets (20_memory R59): a write only inside a bracket, no bracket inside another. -/
def bracketAfter : Option Bool → Event → Option Bool
  | some false, .request .tBeginTransmission => some true
  | some true, .request .tBeginTransmission => none
  | some true, .request (.tWrite _) => some true
  | some false, .request (.tWrite _) => none
  | some true, .request .tEndTransmission => some false
  | some false, .request .tEndTransmission => none
  | b, _ => b

/-- Payload buffers (20_memory R50): at most one held, and each released once under its own handle. -/
def heldAfter : Option (Option Handle) → Event → Option (Option Handle)
  | some none, .answer (.aAcquire (.ok h)) => some (some h)
  | some (some _), .answer (.aAcquire (.ok _)) => none
  | some (some g), .request (.aRelease h) => if g = h then some none else none
  | some none, .request (.aRelease _) => none
  | b, _ => b

/-- Handler calls (42_poll R143): one at a time, each returned from once. -/
def handleAfter : Option Bool → Event → Option Bool
  | some false, .request (.hHandle _ _ _) => some true
  | some true, .request (.hHandle _ _ _) => none
  | some true, .answer .hReturn => some false
  | some false, .answer .hReturn => none
  | b, _ => b

/-- How many `T.read()` requests a trace holds (40_datapath_units R106). -/
def readRequests (es : List Event) : Nat := es.countP fun e => decide (e = .request .tRead)

/-! ## Invariants -/

/-- Every buffer, and every byte space still to be handed over, is in canonical form. -/
def State.canonical (s : State) : Prop :=
  s.pbuf.wf = true ∧ s.cbuf.wf = true ∧ s.src.wf = true ∧
  (∀ c ∈ s.cmds, c.space.wf = true) ∧ (∀ c, .command c ∈ s.handler → c.space.wf = true)

/-- The payload buffer (10_state R26, R34(d); 20_memory R42, R50): the trace's acquires and releases pair up, what they
leave held is `BUFH`, it is held exactly in the steps of the rule, and `PBUF` holds nothing outside. -/
def State.bufferDiscipline (s : State) : Prop :=
  s.trace.foldl heldAfter (some none) = some s.bufh ∧
  s.bufh.isSome = s.phase.holdsBuffer ∧ (s.bufh = none → s.pbuf = [])

/-- Transmission brackets (20_memory R59): the trace keeps the bracket discipline, and a bracket is open exactly in the
steps of a SEND between its opening and its end. -/
def State.bracketDiscipline (s : State) : Prop :=
  s.trace.foldl bracketAfter (some false) = some s.phase.inBracket

/-- The dispatch (42_poll R143, R144, R147): handler calls and returns pair up, one is outstanding exactly in a
dispatch, and then a handler is registered and the header passes the address filter. -/
def State.dispatchDiscipline (s : State) : Prop :=
  s.trace.foldl handleAfter (some false) = some s.phase.inDispatch ∧
  (s.phase.inDispatch = true → s.handlerValid = true ∧ addrAccept s.localId s.hdr.dst = true)

/-- The size checks (40_datapath_units R102, R113): past them `HDR.size` is within the limit, in RECV within the
caller's capacity too, and a held `PBUF` has no offset at or above `HDR.size`. -/
def State.sizeGuard (s : State) : Prop :=
  (s.phase.pollChecked = true → s.hdr.size ≤ Config.maxPacketSize) ∧
  (s.phase.holdsBuffer = true → ∀ c ∈ s.pbuf, c.1 < s.hdr.size.toNat) ∧
  (s.phase.recvChecked = true → s.hdr.size ≤ Config.maxPacketSize ∧ s.hdr.size ≤ s.cmdArg)

/-- The gate (40_datapath_units R109): past it the status is not `NotInitialized`. -/
def State.gateGuard (s : State) : Prop := s.phase.gated = true → s.status ≠ .notInitialized

/-! ## Which operation a step runs -/

/-- The step takes the host's next command, and its word stands for `i`. -/
def State.takes (s : State) (i : Instr) : Prop :=
  s.phase = .idle ∧ ∃ c rest, s.cmds = c :: rest ∧ decode c.word = .instr i

/-- The step begins or goes on with a BEGIN. -/
def State.runsBegin (s : State) : Prop := s.phase = .begin1 ∨ s.takes .begin

/-- The step begins or goes on with a POLL, outside its dispatch. -/
def State.runsPoll (s : State) : Prop :=
  s.phase ∈ [.poll0, .poll1, .poll2, .poll3, .poll4, .poll5, .poll6] ∨ s.takes .poll

/-- The step begins or goes on with a RECV. -/
def State.runsRecv (s : State) : Prop :=
  s.phase ∈ [.recv1, .recv2, .recv3, .recv4] ∨ ∃ n, s.takes (.recv n)

/-! ## What a transport hands over -/

/-- A whole header arrives (40_datapath_units R105). -/
def headerArrives (t : Transport) (d : List Byte) (h : Header) (t' : Transport) : Prop :=
  t.readBytes Config.headerSize = some (Config.headerSize, d, t') ∧ parseHeader d = some h

/-- All `n` bytes asked for arrive (40_datapath_units R107). -/
def payloadArrives (t : Transport) (n : U16) (p : List Byte) (t' : Transport) : Prop :=
  t.readBytes n = some (n, p, t') ∧ p.length = n.toNat

/-- A short read of `n` bytes (00_scope R18). -/
def shortRead (t : Transport) (n k : U16) (d : List Byte) (t' : Transport) : Prop :=
  t.readBytes n = some (k, d, t') ∧ k < n ∧ d.length = k.toNat

/-- The transport answers all of a drain's `n` reads, by `vs` (40_datapath_units R106). -/
def drainAnswered (t : Transport) (n : U16) (vs : List (Option Byte)) (t' : Transport) : Prop :=
  t.drain n.toNat = (vs, t') ∧ vs.length = n.toNat

/-- The events of the reads of a drain, each after the answer to the one before (40_datapath_units R106). -/
def drainTrace (vs : List (Option Byte)) : List Event := vs.flatMap fun v => [.request .tRead, .answer (.tRead v)]

/-- The transport takes the four requests of a SEND (44_send R180). -/
def sendTaken (t t' : Transport) : Prop :=
  ∃ t1 t2 t3, t.takeBeginTransmission = some t1 ∧ t1.takeWrite = some t2 ∧ t2.takeWrite = some t3 ∧
    t3.takeEndTransmission = some t'

/-- The events of a read of `n` bytes answered by `k` bytes `d`. -/
def readEvents (n k : U16) (d : List Byte) : List Event :=
  [.request (.tReadBytes n), .answer (.tReadBytes k d)]

/-- The events of `T.available()` answered by `a`. -/
def availableEvents (a : Bool) : List Event := [.request .tAvailable, .answer (.tAvailable a)]

/-- The events of `A.acquire(n)` answered by `r`. -/
def acquireEvents (n : U16) (r : AllocAnswer) : List Event := [.request (.aAcquire n), .answer (.aAcquire r)]

/-- Nothing but `T.read()` requests and their answers. -/
def onlyReads (es : List Event) : Prop := ∀ e ∈ es, e = .request .tRead ∨ ∃ v, e = .answer (.tRead v)

/-- The frame of a SEND (44_send R180, R183). -/
def sendFrame (h : Header) (p : List Byte) : List Byte := buildHeader h ++ p

/-- The events of a SEND (44_send R180). -/
def sendEvents (h : Header) (p : List Byte) : List Event :=
  [.request .tBeginTransmission, .request (.tWrite (buildHeader h)), .request (.tWrite p), .request .tEndTransmission]

/-- The header a SEND builds (44_send R180 step 1). -/
def State.sentHeader (s : State) (dst : Byte) (size : U16) (p : List Byte) : Header :=
  { src := localByte s.localId, dst := dst, size := size, crc := s.crcUnit.crc16 p }

/-- The engine goes on from `t` (10_state R27, 70_reset_and_hazards R251): it stands there while what it awaits is
missing, and takes its next step once it is there (log 14). -/
def goesOn (t : State) : Result :=
  match t.waitingOn with
  | some _ => .next t
  | none => step t

/-- The moves that can end a wait on a channel: the answers of the collaborator on that channel (70_reset_and_hazards
R251), for a reference transport the bytes that reach its queue (20_memory R63), and for the dispatch the handler's
moves. -/
def Move.mayEnd : Move → Channel → Bool
  | .hostCommand _, _ => false
  | .handlerMove _, ch => decide (ch = .hHandle)
  | .lineBytes _, ch => decide (ch = .tReadBytes) || decide (ch = .tRead)
  | .takesBegin, ch => decide (ch = .tBegin)
  | .answersAvailable _, ch => decide (ch = .tAvailable)
  | .answersReadBytes _ _, ch => decide (ch = .tReadBytes)
  | .answersRead _, ch => decide (ch = .tRead)
  | .takesBeginTransmission, ch => decide (ch = .tBeginTransmission)
  | .takesWrite, ch => decide (ch = .tWrite)
  | .takesEndTransmission, ch => decide (ch = .tEndTransmission)
  | .answersAcquire _, ch => decide (ch = .aAcquire)

/-- The same outcome with the next state changed by `f`. -/
def mapNext (f : State → State) : Result → Result
  | .next t => .next (f t)
  | .fault x => .fault x
  | .refused r => .refused r

/-- `t` differs from `s` at most in the record of responses, rejections and drawn free values. -/
def sameButRecord (s t : State) : Prop :=
  { s with responses := t.responses, rejected := t.rejected, draws := t.draws } = t

end Sys2Proof.Machine
end

