-- ==== Sys2Proof/Certificates/Slice0/Obligations.lean ====
section
/-! DEFINITION. The statements for the provers. -/

open Sys2Proof Sys2Proof.Machine

/-! ## Command words -/

/-- Every operation's word decodes to that operation, with every operand at every value (the layout is
92_eei_decisions D3). -/
def Obligations.DecodeOfEncode : Prop := ∀ i : Instr, decode (encode i) = .instr i

/-- A word that decodes to an operation is that operation's word: no bit is dropped (92_eei_decisions D3). -/
def Obligations.EncodeOfDecode : Prop := ∀ (w : Word32) (i : Instr), decode w = .instr i → encode i = w

/-- The decoder rejects by name exactly the reserved words of 30_encoding R82; those with `op = 0x7` it reads as the
reserved operation RECVL (92_eei_decisions D15). -/
def Obligations.DecoderRejectsReservedWords : Prop :=
  ∀ w : Word32,
    (∃ why, decode w = .reserved why) ↔
      8 ≤ (opField w).toNat ∨
      (opField w ≠ 7 ∧ zField w ≠ 0) ∨
      ((opField w).toNat ≤ 5 ∧ dstField w ≠ 0) ∨
      (opField w ∈ [0, 1, 2, 4] ∧ argField w ≠ 0)

/-- Words of 95_test_vectors 3.5 decode to the operations they stand for. -/
def Obligations.DecodesWordsOfTheSpec : Prop :=
  decode 0x00000000 = .instr .begin ∧ decode 0x10000000 = .instr .haserr ∧ decode 0x20000000 = .instr .geterr ∧
  decode 0x300000B2 = .instr (.seth 0x00B2) ∧ decode 0x40000000 = .instr .poll ∧
  decode 0x500001F4 = .instr (.recv 500) ∧ decode 0x60FF0004 = .instr (.send 255 4) ∧
  decode 0x70000000 = .instr (.recvl 0) ∧ decode 0x80000000 = .reserved .opcode ∧
  decode 0x41000000 = .reserved .zNotZero ∧ decode 0x50020040 = .reserved .dstNotZero ∧
  decode 0x40000001 = .reserved .argNotZero

/-! ## Taking a command -/

/-- A step at rest takes the host's next command and runs the operation its word stands for, with the command's byte
space handed over; in a dispatch it does the same with the handler's next command. A word placed at rest is the next
that runs. -/
def Obligations.StepRunsTheDecodedCommand : Prop :=
  ∀ (s : State) (c : Command) (i : Instr), decode c.word = .instr i →
    (∀ rest, s.phase = .idle → s.cmds = c :: rest →
      step s = exec i (State.handOver { s with cmds := rest } i c.space)) ∧
    (∀ rest, s.phase = .dispatch → s.handler = .command c :: rest →
      step s = exec i (State.handOver { s with handler := rest } i c.space)) ∧
    (∀ nbits, s.phase = .idle → step (s.withFetchWord nbits c.word.toNat) = exec i (s.handOver i []))

/-- A reserved word completes, from the host and from the handler, with the response of its operation's kind and no other
effect (92_eei_decisions D4, D14, D15); the model records its name (log 8), and a value nobody states is a free value
(log 7). -/
def Obligations.ReservedWordHasNoEffect : Prop :=
  ∀ (s : State) (c : Command) (who : Caller) (s' : State) (why : Reserved),
    ((∃ rest, who = .host ∧ s.phase = .idle ∧ s.cmds = c :: rest ∧ s' = { s with cmds := rest }) ∨
      (∃ rest, who = .handler ∧ s.phase = .dispatch ∧ s.handler = .command c :: rest ∧
        s' = { s with handler := rest })) →
    decode c.word = .reserved why →
      ∃ (r : Response) (n : Nat),
        step s = .next { s' with responses := s.responses ++ [(who, r)],
                                 rejected := s.rejected ++ [.reservedWord why], draws := n } ∧
        (opField c.word = 1 → ∃ b, r = .hasErr b) ∧
        (opField c.word = 2 → ∃ st : Status, r = .getErr st.code) ∧
        (opField c.word = 5 → ∃ h, r = .recv 0 h) ∧
        (opField c.word ∉ [1, 2, 5] → r = .done)

/-- RECVL completes with no effect, from either caller (92_eei_decisions D13, D15; the bare completion is log 7, the
recorded name log 8). -/
def Obligations.RecvlHasNoEffect : Prop :=
  ∀ (s : State) (c : Caller) (bits : BitVec 28), s.phase = c.restPhase →
    exec (.recvl bits) s =
      .next { s with responses := s.responses ++ [(c, .done)], rejected := s.rejected ++ [.legacyRecv] }

/-- While an operation is in progress and no dispatch waits, no command is served (92_eei_decisions D29): `exec` refuses
each, and a step takes no command of the host and none of the handler, whose return it may meet when it reaches the
dispatch. -/
def Obligations.BusyEngineServesNoCommand : Prop :=
  (∀ (i : Instr) (s : State), s.phase ≠ .idle → s.phase ≠ .dispatch → exec i s = .refused .commandWhileBusy) ∧
  (∀ s t : State, s.phase ≠ .idle → s.phase ≠ .dispatch → step s = .next t →
    t.cmds = s.cmds ∧ (t.handler = s.handler ∨ s.handler = .ret :: t.handler))

/-- Before BEGIN, POLL, RECV and SEND complete with no effect, RECV answering 0 (92_eei_decisions D8). -/
def Obligations.GateRejectsBeforeBegin : Prop :=
  ∀ s : State, s.status = .notInitialized →
    (s.phase = .idle →
      (∃ t, exec .poll s = .next t ∧ sameButRecord s t ∧ t.responses = s.responses ++ [(.host, .done)]) ∧
      (∀ n, ∃ t h, exec (.recv n) s = .next t ∧ sameButRecord s t ∧
        t.responses = s.responses ++ [(.host, .recv 0 h)])) ∧
    (∀ (c : Caller) (dst : Byte) (n : U16), s.phase = c.restPhase →
      ∃ t, exec (.send dst n) s = .next t ∧ sameButRecord s t ∧ t.responses = s.responses ++ [(c, .done)])

/-- BEGIN, POLL and RECV from the handler complete with no effect, RECV answering 0 (92_eei_decisions D14). -/
def Obligations.HandlerMayNotReceiveOrBegin : Prop :=
  ∀ s : State, s.phase = .dispatch →
    (∃ t, exec .begin s = .next t ∧ sameButRecord s t ∧ t.responses = s.responses ++ [(.handler, .done)]) ∧
    (∃ t, exec .poll s = .next t ∧ sameButRecord s t ∧ t.responses = s.responses ++ [(.handler, .done)]) ∧
    (∀ n, ∃ t h, exec (.recv n) s = .next t ∧ sameButRecord s t ∧
      t.responses = s.responses ++ [(.handler, .recv 0 h)])

/-! ## Lifecycle and status -/

/-- BEGIN issues `T.begin(LINE_RATE)` and, once it is taken, stores `Ready`, whatever the status was (a second BEGIN is
92_eei_decisions D24); nothing else changes. Until it is taken BEGIN stands at its step 1, and a step from there does the
rest. The word is 92_eei_decisions D3. -/
def Obligations.BeginStoresReady : Prop :=
  encode .begin = 0x00000000 ∧
  (∀ (s : State) (t : Transport), s.phase = .idle → s.transport.takeBegin = some t →
    exec .begin s =
      .next { s with transport := t, status := .ready,
                     trace := s.trace ++ [.request (.tBegin Config.lineRate)],
                     responses := s.responses ++ [(.host, .done)] }) ∧
  (∀ s : State, s.phase = .idle →
    exec .begin s =
      goesOn { s with phase := .begin1, trace := s.trace ++ [.request (.tBegin Config.lineRate)] }) ∧
  (∀ (s : State) (t : Transport), s.phase = .begin1 → s.transport.takeBegin = some t →
    step s =
      .next { s with transport := t, status := .ready, phase := .idle,
                     responses := s.responses ++ [(.host, .done)] })

/-- HASERR answers whether `STATUS` is other than `Ready`, to either caller, and changes nothing. The word is
92_eei_decisions D3, the nested caller D14. -/
def Obligations.HaserrAnswersNotReady : Prop :=
  encode .haserr = 0x10000000 ∧
  ∀ (s : State) (c : Caller), s.phase = c.restPhase →
    exec .haserr s = .next { s with responses := s.responses ++ [(c, .hasErr (decide (s.status ≠ .ready)))] }

/-- GETERR answers the code of `STATUS`, to either caller, and changes nothing; no status has code 7, and no two have
the same code. The word is 92_eei_decisions D3, the codes D5, the nested caller D14. -/
def Obligations.GeterrAnswersTheStatus : Prop :=
  encode .geterr = 0x20000000 ∧
  (∀ (s : State) (c : Caller), s.phase = c.restPhase →
    exec .geterr s = .next { s with responses := s.responses ++ [(c, .getErr s.status.code)] }) ∧
  (∀ st : Status, st.code ≠ 7) ∧ (∀ a b : Status, a.code = b.code → a = b)

/-- The codes of the seven statuses (92_eei_decisions D5). -/
def Obligations.StatusCodes : Prop :=
  Status.code .notInitialized = 0 ∧ Status.code .ready = 1 ∧ Status.code .allocationFailure = 2 ∧
  Status.code .packetOverSize = 3 ∧ Status.code .crcError = 4 ∧ Status.code .badHeader = 5 ∧
  Status.code .badPacket = 6

/-- SETH registers any token in place of what was registered, from either caller, in every status, and changes nothing
else. The word is 92_eei_decisions D3, that every token registers D31, the nested caller D14. -/
def Obligations.SethRegistersTheHandler : Prop :=
  (∀ ref : U16, encode (.seth ref) = 0x30000000 + ref.setWidth 32) ∧
  ∀ (s : State) (c : Caller) (ref : U16), s.phase = c.restPhase →
    exec (.seth ref) s =
      .next { s with handlerRef := ref, handlerValid := true, responses := s.responses ++ [(c, .done)] }

/-! ## POLL -/

/-- POLL ends at once when the transport has no bytes. A POLL past the gate stands at its step 0 until that answer is
there. -/
def Obligations.PollIdle : Prop :=
  (∀ (s : State) (t : Transport), s.phase = .idle → s.status ≠ .notInitialized →
    s.transport.available = some (false, t) →
    exec .poll s =
      .next { s with transport := t, trace := s.trace ++ availableEvents false,
                     responses := s.responses ++ [(.host, .done)] }) ∧
  (∀ s : State, s.phase = .idle → s.status ≠ .notInitialized →
    exec .poll s = goesOn { s with phase := .poll0, trace := s.trace ++ [.request .tAvailable] }) ∧
  (∀ (s : State) (t : Transport), s.phase = .poll0 → s.transport.available = some (false, t) →
    step s =
      .next { s with transport := t, phase := .idle, trace := s.trace ++ [.answer (.tAvailable false)],
                     responses := s.responses ++ [(.host, .done)] })

/-- POLL with a short header read stores `BadHeader`; the bytes are gone and nothing is drained. The same from step 0,
which goes on to step 1, and from step 1. -/
def Obligations.PollShortHeader : Prop :=
  (∀ (s : State) (t1 t2 : Transport) (k : U16) (d : List Byte), s.phase = .idle → s.status ≠ .notInitialized →
    s.transport.available = some (true, t1) → shortRead t1 6 k d t2 →
    exec .poll s =
      .next { s with transport := t2, status := .badHeader,
                     trace := s.trace ++ availableEvents true ++ readEvents 6 k d,
                     responses := s.responses ++ [(.host, .done)] }) ∧
  (∀ (s : State) (t : Transport), s.phase = .poll0 → s.transport.available = some (true, t) →
    step s =
      goesOn { s with transport := t, phase := .poll1,
                      trace := s.trace ++ [.answer (.tAvailable true), .request (.tReadBytes 6)] }) ∧
  (∀ (s : State) (t : Transport) (k : U16) (d : List Byte), s.phase = .poll1 → shortRead s.transport 6 k d t →
    step s =
      .next { s with transport := t, status := .badHeader, phase := .idle,
                     trace := s.trace ++ [.answer (.tReadBytes k d)],
                     responses := s.responses ++ [(.host, .done)] })

/-- POLL with an oversize header stores `PacketOverSize` and issues exactly `HDR.size` reads (`drainTrace` of that
many answers, 92_eei_decisions D25); nothing is acquired or dispatched. The same from step 1, which goes on to the
drain, and from each read of the drain. -/
def Obligations.PollOversizeDrains : Prop :=
  (∀ (s : State) (t1 t2 t3 : Transport) (d : List Byte) (h : Header) (vs : List (Option Byte)), s.phase = .idle →
    s.status ≠ .notInitialized → s.transport.available = some (true, t1) → headerArrives t1 d h t2 →
    500 < h.size.toNat → drainAnswered t2 h.size vs t3 →
    exec .poll s =
      .next { s with transport := t3, status := .packetOverSize, hdr := h, drainLeft := 0,
                     trace := s.trace ++ availableEvents true ++ readEvents 6 6 d ++ drainTrace vs,
                     responses := s.responses ++ [(.host, .done)] }) ∧
  (∀ (s : State) (t : Transport) (d : List Byte) (h : Header), s.phase = .poll1 → headerArrives s.transport d h t →
    500 < h.size.toNat →
    step s =
      goesOn { s with transport := t, phase := .poll2, status := .packetOverSize, hdr := h, drainLeft := h.size,
                      trace := s.trace ++ [.answer (.tReadBytes 6 d), .request .tRead] }) ∧
  (∀ (s : State) (t : Transport) (v : Option Byte), s.phase = .poll2 → s.transport.read = some (v, t) →
    (1 < s.drainLeft.toNat →
      step s =
        goesOn { s with transport := t, drainLeft := s.drainLeft - 1,
                        trace := s.trace ++ [.answer (.tRead v), .request .tRead] }) ∧
    (s.drainLeft = 1 →
      step s =
        .next { s with transport := t, drainLeft := 0, phase := .idle, trace := s.trace ++ [.answer (.tRead v)],
                       responses := s.responses ++ [(.host, .done)] }))

/-- POLL whose acquire fails stores `AllocationFailure`; no read follows the header's, so the payload stays in the
stream. Nothing but POLL raises it. The same from step 3. -/
def Obligations.PollAllocationFailure : Prop :=
  (∀ (s : State) (t1 t2 : Transport) (d : List Byte) (h : Header) (a : Allocator), s.phase = .idle →
    s.status ≠ .notInitialized → s.transport.available = some (true, t1) → headerArrives t1 d h t2 →
    h.size.toNat ≤ 500 → s.allocator.acquire = some (.fail, a) →
    exec .poll s =
      .next { s with transport := t2, status := .allocationFailure, hdr := h, allocator := a,
                     trace := s.trace ++ availableEvents true ++ readEvents 6 6 d ++ acquireEvents h.size .fail,
                     responses := s.responses ++ [(.host, .done)] }) ∧
  (∀ s t : State, step s = .next t → t.status ≠ s.status → t.status = .allocationFailure → s.runsPoll) ∧
  (∀ (s : State) (a : Allocator), s.phase = .poll3 → s.allocator.acquire = some (.fail, a) →
    step s =
      .next { s with allocator := a, status := .allocationFailure, phase := .idle,
                     trace := s.trace ++ [.answer (.aAcquire .fail)],
                     responses := s.responses ++ [(.host, .done)] })

/-- POLL with a short payload read releases the buffer, then stores `BadPacket`. The same from step 1, which goes on to
step 3, from step 3, which goes on to step 4, and from step 4. -/
def Obligations.PollShortPayload : Prop :=
  (∀ (s : State) (t1 t2 t3 : Transport) (d p : List Byte) (h : Header) (a : Allocator) (g : Handle) (k : U16),
    s.phase = .idle → s.status ≠ .notInitialized → s.transport.available = some (true, t1) →
    headerArrives t1 d h t2 → h.size.toNat ≤ 500 → s.allocator.acquire = some (.ok g, a) →
    shortRead t2 h.size k p t3 →
    exec .poll s =
      .next { s with transport := t3, status := .badPacket, hdr := h, allocator := a, bufh := none, pbuf := [],
                     trace := s.trace ++ availableEvents true ++ readEvents 6 6 d ++ acquireEvents h.size (.ok g) ++
                       readEvents h.size k p ++ [.request (.aRelease g)],
                     responses := s.responses ++ [(.host, .done)] }) ∧
  (∀ (s : State) (t : Transport) (d : List Byte) (h : Header), s.phase = .poll1 → headerArrives s.transport d h t →
    h.size.toNat ≤ 500 →
    step s =
      goesOn { s with transport := t, phase := .poll3, hdr := h,
                      trace := s.trace ++ [.answer (.tReadBytes 6 d), .request (.aAcquire h.size)] }) ∧
  (∀ (s : State) (a : Allocator) (g : Handle), s.phase = .poll3 → s.allocator.acquire = some (.ok g, a) →
    step s =
      goesOn { s with allocator := a, phase := .poll4, bufh := some g, pbuf := [],
                      trace := s.trace ++ [.answer (.aAcquire (.ok g)), .request (.tReadBytes s.hdr.size)] }) ∧
  (∀ (s : State) (t : Transport) (k : U16) (p : List Byte) (g : Handle), s.phase = .poll4 → s.bufh = some g →
    shortRead s.transport s.hdr.size k p t →
    step s =
      .next { s with transport := t, status := .badPacket, phase := .idle, bufh := none, pbuf := [],
                     trace := s.trace ++ [.answer (.tReadBytes k p), .request (.aRelease g)],
                     responses := s.responses ++ [(.host, .done)] })

/-- POLL of an accepted packet with a handler registered hands it the header and the payload once, waits for its
return, releases the buffer and stores no status (92_eei_decisions D9; a payload of size 0 is D23). The same from step
4. -/
def Obligations.PollDispatches : Prop :=
  (∀ (s : State) (t1 t2 t3 : Transport) (d p : List Byte) (h : Header) (a : Allocator) (g : Handle)
    (moves : List HandlerMove),
    s.phase = .idle → s.status ≠ .notInitialized → s.transport.available = some (true, t1) →
    headerArrives t1 d h t2 → h.size.toNat ≤ 500 → s.allocator.acquire = some (.ok g, a) →
    payloadArrives t2 h.size p t3 → h.dst = localByte s.localId ∨ h.dst = 255 → s.handlerValid = true →
    s.handler = .ret :: moves →
    exec .poll s =
      .next { s with transport := t3, hdr := h, allocator := a, handler := moves, bufh := none, pbuf := [],
                     trace := s.trace ++ availableEvents true ++ readEvents 6 6 d ++ acquireEvents h.size (.ok g) ++
                       readEvents h.size h.size p ++
                       [.request (.hHandle s.handlerRef h p), .answer .hReturn, .request (.aRelease g)],
                     responses := s.responses ++ [(.host, .done)] }) ∧
  (∀ (s : State) (t : Transport) (p : List Byte) (g : Handle) (moves : List HandlerMove), s.phase = .poll4 →
    s.bufh = some g → payloadArrives s.transport s.hdr.size p t →
    s.hdr.dst = localByte s.localId ∨ s.hdr.dst = 255 → s.handlerValid = true → s.handler = .ret :: moves →
    step s =
      .next { s with transport := t, phase := .idle, handler := moves, bufh := none, pbuf := [],
                     trace := s.trace ++ [.answer (.tReadBytes s.hdr.size p),
                       .request (.hHandle s.handlerRef s.hdr p), .answer .hReturn, .request (.aRelease g)],
                     responses := s.responses ++ [(.host, .done)] })

/-- While the handler has not returned, the POLL stands in its dispatch with the buffer held: the handler has the
header and the payload, and its commands can be taken. The same from step 4. -/
def Obligations.PollWaitsInDispatch : Prop :=
  (∀ (s : State) (t1 t2 t3 : Transport) (d p : List Byte) (h : Header) (a : Allocator) (g : Handle),
    s.phase = .idle → s.status ≠ .notInitialized → s.transport.available = some (true, t1) →
    headerArrives t1 d h t2 → h.size.toNat ≤ 500 → s.allocator.acquire = some (.ok g, a) →
    payloadArrives t2 h.size p t3 → addrAccept s.localId h.dst = true → s.handlerValid = true →
    (∀ moves, s.handler ≠ .ret :: moves) →
    ∃ t, exec .poll s = .next t ∧ t.phase = .dispatch ∧ t.bufh = some g ∧ t.hdr = h ∧
      t.pbuf.readBytes 0 h.size.toNat = some p ∧ t.status = s.status ∧ t.responses = s.responses ∧
      t.trace = s.trace ++ availableEvents true ++ readEvents 6 6 d ++ acquireEvents h.size (.ok g) ++
        readEvents h.size h.size p ++ [.request (.hHandle s.handlerRef h p)]) ∧
  (∀ (s : State) (t : Transport) (p : List Byte), s.phase = .poll4 → payloadArrives s.transport s.hdr.size p t →
    addrAccept s.localId s.hdr.dst = true → s.handlerValid = true → (∀ moves, s.handler ≠ .ret :: moves) →
    step s =
      .next { s with transport := t, phase := .dispatch, pbuf := s.pbuf.writeBytes 0 p,
                     trace := s.trace ++ [.answer (.tReadBytes s.hdr.size p),
                       .request (.hHandle s.handlerRef s.hdr p)] })

/-- The handler's return ends the POLL: the buffer is released and no status is stored (92_eei_decisions D9, D30). -/
def Obligations.HandlerReturnEndsPoll : Prop :=
  ∀ (s : State) (moves : List HandlerMove) (g : Handle), s.phase = .dispatch → s.handler = .ret :: moves →
    s.bufh = some g →
    step s =
      .next { s with handler := moves, phase := .idle, bufh := none, pbuf := [],
                     trace := s.trace ++ [.answer .hReturn, .request (.aRelease g)],
                     responses := s.responses ++ [(.host, .done)] }

/-- POLL of a frame for another node reads it whole, drops it silently and stores no status (92_eei_decisions D9). The
same from step 4. -/
def Obligations.PollDropsOtherDestinations : Prop :=
  (∀ (s : State) (t1 t2 t3 : Transport) (d p : List Byte) (h : Header) (a : Allocator) (g : Handle),
    s.phase = .idle → s.status ≠ .notInitialized → s.transport.available = some (true, t1) →
    headerArrives t1 d h t2 → h.size.toNat ≤ 500 → s.allocator.acquire = some (.ok g, a) →
    payloadArrives t2 h.size p t3 → h.dst ≠ localByte s.localId → h.dst ≠ 255 →
    exec .poll s =
      .next { s with transport := t3, hdr := h, allocator := a, bufh := none, pbuf := [],
                     trace := s.trace ++ availableEvents true ++ readEvents 6 6 d ++ acquireEvents h.size (.ok g) ++
                       readEvents h.size h.size p ++ [.request (.aRelease g)],
                     responses := s.responses ++ [(.host, .done)] }) ∧
  (∀ (s : State) (t : Transport) (p : List Byte) (g : Handle), s.phase = .poll4 → s.bufh = some g →
    payloadArrives s.transport s.hdr.size p t → s.hdr.dst ≠ localByte s.localId → s.hdr.dst ≠ 255 →
    step s =
      .next { s with transport := t, phase := .idle, bufh := none, pbuf := [],
                     trace := s.trace ++ [.answer (.tReadBytes s.hdr.size p), .request (.aRelease g)],
                     responses := s.responses ++ [(.host, .done)] })

/-- POLL of an accepted packet with no handler registered loses it silently (92_eei_decisions D10, log 25). The same
from step 4. -/
def Obligations.PollWithoutHandler : Prop :=
  (∀ (s : State) (t1 t2 t3 : Transport) (d p : List Byte) (h : Header) (a : Allocator) (g : Handle),
    s.phase = .idle → s.status ≠ .notInitialized → s.transport.available = some (true, t1) →
    headerArrives t1 d h t2 → h.size.toNat ≤ 500 → s.allocator.acquire = some (.ok g, a) →
    payloadArrives t2 h.size p t3 → s.handlerValid = false →
    exec .poll s =
      .next { s with transport := t3, hdr := h, allocator := a, bufh := none, pbuf := [],
                     trace := s.trace ++ availableEvents true ++ readEvents 6 6 d ++ acquireEvents h.size (.ok g) ++
                       readEvents h.size h.size p ++ [.request (.aRelease g)],
                     responses := s.responses ++ [(.host, .done)] }) ∧
  (∀ (s : State) (t : Transport) (p : List Byte) (g : Handle), s.phase = .poll4 → s.bufh = some g →
    payloadArrives s.transport s.hdr.size p t → s.handlerValid = false →
    step s =
      .next { s with transport := t, phase := .idle, bufh := none, pbuf := [],
                     trace := s.trace ++ [.answer (.tReadBytes s.hdr.size p), .request (.aRelease g)],
                     responses := s.responses ++ [(.host, .done)] })

/-- No step of POLL looks at the checksum function: with another one everything else goes the same way. -/
def Obligations.PollComparesNoChecksum : Prop :=
  ∀ (s : State) (u : CrcUnit),
    exec .poll { s with crcUnit := u } = mapNext (fun t => { t with crcUnit := u }) (exec .poll s) ∧
    (s.phase ∈ [.poll0, .poll1, .poll2, .poll3, .poll4, .poll5, .poll6] →
      step { s with crcUnit := u } = mapNext (fun t => { t with crcUnit := u }) (step s))

/-- What POLL leaves alone, in `exec` and in each step that goes on with it, the one that ends its dispatch included: the
node id, the handler registration, the operands, the nested header, `CBUF`, `SRC`, `TX`, the host's commands; its status
writes are its four errors; `PBUF` outside the payload has no new byte. -/
def Obligations.PollFrame : Prop :=
  ∀ s t : State,
    (exec .poll s = .next t ∨
      (step s = .next t ∧
        (s.phase ∈ [.poll0, .poll1, .poll2, .poll3, .poll4, .poll5, .poll6] ∨
          (s.phase = .dispatch ∧ ∃ moves, s.handler = .ret :: moves)))) →
    t.localId = s.localId ∧ t.handlerValid = s.handlerValid ∧ t.handlerRef = s.handlerRef ∧ t.cmdDst = s.cmdDst ∧
    t.cmdArg = s.cmdArg ∧ t.nestedHdr = s.nestedHdr ∧ t.cbuf = s.cbuf ∧ t.src = s.src ∧ t.tx = s.tx ∧
    t.cmds = s.cmds ∧ t.crcUnit = s.crcUnit ∧ t.draws = s.draws ∧ t.freeSource = s.freeSource ∧
    (t.status = s.status ∨ t.status ∈ [.badHeader, .packetOverSize, .allocationFailure, .badPacket]) ∧
    (∀ a, t.hdr.size.toNat ≤ a → t.pbuf.read a = s.pbuf.read a ∨ t.pbuf.read a = none)

/-! ## RECV -/

/-- RECV of a whole frame within the limits whose CRC agrees returns its size and header, with the payload in `CBUF`
and the status unwritten (92_eei_decisions D9, D17; a payload of size 0 is D23). A RECV past the gate stands at its
step 1 until the header is there, goes on to step 3, and the same holds from there. -/
def Obligations.RecvReceives : Prop :=
  (∀ (s : State) (capacity : U16) (t1 t2 : Transport) (d p : List Byte) (h : Header),
    s.phase = .idle → s.status ≠ .notInitialized → headerArrives s.transport d h t1 →
    h.size.toNat ≤ 500 → h.size.toNat ≤ capacity.toNat → payloadArrives t1 h.size p t2 →
    s.crcUnit.crc16 p = h.crc →
    exec (.recv capacity) s =
      .next { s with transport := t2, hdr := h, cmdArg := capacity, cbuf := s.cbuf.writeBytes 0 p,
                     trace := s.trace ++ readEvents 6 6 d ++ readEvents h.size h.size p,
                     responses := s.responses ++ [(.host, .recv h.size h)] }) ∧
  (∀ (s : State) (capacity : U16), s.phase = .idle → s.status ≠ .notInitialized →
    exec (.recv capacity) s =
      goesOn { s with phase := .recv1, cmdArg := capacity, trace := s.trace ++ [.request (.tReadBytes 6)] }) ∧
  (∀ (s : State) (t : Transport) (d : List Byte) (h : Header), s.phase = .recv1 → headerArrives s.transport d h t →
    h.size.toNat ≤ 500 → h.size.toNat ≤ s.cmdArg.toNat →
    step s =
      goesOn { s with transport := t, phase := .recv3, hdr := h,
                      trace := s.trace ++ [.answer (.tReadBytes 6 d), .request (.tReadBytes h.size)] }) ∧
  (∀ (s : State) (t : Transport) (p : List Byte), s.phase = .recv3 → payloadArrives s.transport s.hdr.size p t →
    s.crcUnit.crc16 p = s.hdr.crc →
    step s =
      .next { s with transport := t, phase := .idle, cbuf := s.cbuf.writeBytes 0 p,
                     trace := s.trace ++ [.answer (.tReadBytes s.hdr.size p)],
                     responses := s.responses ++ [(.host, .recv s.hdr.size s.hdr)] })

/-- RECV with a short header read stores `BadHeader` and returns 0; `header_out` is any value (92_eei_decisions D17,
log 6). The same from step 1. -/
def Obligations.RecvShortHeader : Prop :=
  (∀ (s : State) (capacity : U16) (t1 : Transport) (k : U16) (d : List Byte), s.phase = .idle →
    s.status ≠ .notInitialized → shortRead s.transport 6 k d t1 →
    ∃ (h : Header) (n : Nat), exec (.recv capacity) s =
      .next { s with transport := t1, status := .badHeader, cmdArg := capacity, draws := n,
                     trace := s.trace ++ readEvents 6 k d,
                     responses := s.responses ++ [(.host, .recv 0 h)] }) ∧
  (∀ (s : State) (t : Transport) (k : U16) (d : List Byte), s.phase = .recv1 → shortRead s.transport 6 k d t →
    ∃ (h : Header) (n : Nat), step s =
      .next { s with transport := t, status := .badHeader, phase := .idle, draws := n,
                     trace := s.trace ++ [.answer (.tReadBytes k d)],
                     responses := s.responses ++ [(.host, .recv 0 h)] })

/-- RECV of a frame over the limit or over the capacity stores `PacketOverSize`, issues exactly `HDR.size` reads and
returns 0; `CBUF` is untouched (92_eei_decisions D17, D25). The same from step 1, which goes on to the drain, and from
each read of the drain. -/
def Obligations.RecvOversizeDrains : Prop :=
  (∀ (s : State) (capacity : U16) (t1 t2 : Transport) (d : List Byte) (h : Header) (vs : List (Option Byte)),
    s.phase = .idle → s.status ≠ .notInitialized → headerArrives s.transport d h t1 →
    500 < h.size.toNat ∨ capacity.toNat < h.size.toNat → drainAnswered t1 h.size vs t2 →
    exec (.recv capacity) s =
      .next { s with transport := t2, status := .packetOverSize, hdr := h, cmdArg := capacity, drainLeft := 0,
                     trace := s.trace ++ readEvents 6 6 d ++ drainTrace vs,
                     responses := s.responses ++ [(.host, .recv 0 h)] }) ∧
  (∀ (s : State) (t : Transport) (d : List Byte) (h : Header), s.phase = .recv1 → headerArrives s.transport d h t →
    500 < h.size.toNat ∨ s.cmdArg.toNat < h.size.toNat →
    step s =
      goesOn { s with transport := t, phase := .recv2, status := .packetOverSize, hdr := h, drainLeft := h.size,
                      trace := s.trace ++ [.answer (.tReadBytes 6 d), .request .tRead] }) ∧
  (∀ (s : State) (t : Transport) (v : Option Byte), s.phase = .recv2 → s.transport.read = some (v, t) →
    (1 < s.drainLeft.toNat →
      step s =
        goesOn { s with transport := t, drainLeft := s.drainLeft - 1,
                        trace := s.trace ++ [.answer (.tRead v), .request .tRead] }) ∧
    (s.drainLeft = 1 →
      step s =
        .next { s with transport := t, drainLeft := 0, phase := .idle, trace := s.trace ++ [.answer (.tRead v)],
                       responses := s.responses ++ [(.host, .recv 0 s.hdr)] }))

/-- RECV with a short payload read stores `BadPacket` and returns 0; what arrived is in `CBUF` (92_eei_decisions D17).
The same from step 3. -/
def Obligations.RecvShortPayload : Prop :=
  (∀ (s : State) (capacity : U16) (t1 t2 : Transport) (d p : List Byte) (h : Header) (k : U16),
    s.phase = .idle → s.status ≠ .notInitialized → headerArrives s.transport d h t1 →
    h.size.toNat ≤ 500 → h.size.toNat ≤ capacity.toNat → shortRead t1 h.size k p t2 →
    exec (.recv capacity) s =
      .next { s with transport := t2, status := .badPacket, hdr := h, cmdArg := capacity,
                     cbuf := s.cbuf.writeBytes 0 p,
                     trace := s.trace ++ readEvents 6 6 d ++ readEvents h.size k p,
                     responses := s.responses ++ [(.host, .recv 0 h)] }) ∧
  (∀ (s : State) (t : Transport) (k : U16) (p : List Byte), s.phase = .recv3 →
    shortRead s.transport s.hdr.size k p t →
    step s =
      .next { s with transport := t, status := .badPacket, phase := .idle, cbuf := s.cbuf.writeBytes 0 p,
                     trace := s.trace ++ [.answer (.tReadBytes k p)],
                     responses := s.responses ++ [(.host, .recv 0 s.hdr)] })

/-- RECV of a whole frame whose CRC disagrees stores `CrcError` and returns 0, with the whole frame consumed. Nothing
but RECV raises it. The same from step 3. What `header_out` and `CBUF` hold on this path is 92_eei_decisions D17. -/
def Obligations.RecvCrcMismatch : Prop :=
  (∀ s t : State, step s = .next t → t.status ≠ s.status → t.status = .crcError → s.runsRecv) ∧
  (∀ (s : State) (capacity : U16) (t1 t2 : Transport) (d p : List Byte) (h : Header),
    s.phase = .idle → s.status ≠ .notInitialized → headerArrives s.transport d h t1 →
    h.size.toNat ≤ 500 → h.size.toNat ≤ capacity.toNat → payloadArrives t1 h.size p t2 →
    s.crcUnit.crc16 p ≠ h.crc →
    exec (.recv capacity) s =
      .next { s with transport := t2, status := .crcError, hdr := h, cmdArg := capacity,
                     cbuf := s.cbuf.writeBytes 0 p,
                     trace := s.trace ++ readEvents 6 6 d ++ readEvents h.size h.size p,
                     responses := s.responses ++ [(.host, .recv 0 h)] }) ∧
  (∀ (s : State) (t : Transport) (p : List Byte), s.phase = .recv3 → payloadArrives s.transport s.hdr.size p t →
    s.crcUnit.crc16 p ≠ s.hdr.crc →
    step s =
      .next { s with transport := t, status := .crcError, phase := .idle, cbuf := s.cbuf.writeBytes 0 p,
                     trace := s.trace ++ [.answer (.tReadBytes s.hdr.size p)],
                     responses := s.responses ++ [(.host, .recv 0 s.hdr)] })

/-- RECV reads neither the node id nor the handler registration nor the allocator: with others `exec`, and every step that
goes on with a RECV, goes the same way, the same free values being drawn in both (the model's choice, log 6). -/
def Obligations.RecvIgnoresAddressHandlerAndAllocator : Prop :=
  ∀ (s : State) (id : Fin 255) (valid : Bool) (ref : U16) (al : Allocator) (moves : List HandlerMove),
    (∀ capacity : U16,
      exec (.recv capacity)
          { s with localId := id, handlerValid := valid, handlerRef := ref, allocator := al, handler := moves } =
        mapNext (fun t =>
            { t with localId := id, handlerValid := valid, handlerRef := ref, allocator := al, handler := moves })
          (exec (.recv capacity) s)) ∧
    (s.phase ∈ [.recv1, .recv2, .recv3, .recv4] →
      step { s with localId := id, handlerValid := valid, handlerRef := ref, allocator := al, handler := moves } =
        mapNext (fun t =>
            { t with localId := id, handlerValid := valid, handlerRef := ref, allocator := al, handler := moves })
          (step s))

/-- What RECV leaves alone, in `exec` and in each step that goes on with it: everything but the status, the header, its own
operand, `CBUF` within the payload and the record; no offset of `CBUF` at or above the payload's size, the limit or the
capacity changes. For a step that goes on, the last two rest on the size guard, an invariant of its own. -/
def Obligations.RecvFrame : Prop :=
  ∀ (s t : State) (capacity : U16),
    (exec (.recv capacity) s = .next t ∨
      (step s = .next t ∧ s.phase ∈ [.recv1, .recv2, .recv3, .recv4] ∧ s.cmdArg = capacity)) →
    t.localId = s.localId ∧ t.handlerValid = s.handlerValid ∧ t.handlerRef = s.handlerRef ∧ t.bufh = s.bufh ∧
    t.cmdDst = s.cmdDst ∧ t.nestedHdr = s.nestedHdr ∧ t.pbuf = s.pbuf ∧ t.src = s.src ∧ t.tx = s.tx ∧
    t.allocator = s.allocator ∧ t.handler = s.handler ∧ t.cmds = s.cmds ∧ t.crcUnit = s.crcUnit ∧
    t.freeSource = s.freeSource ∧ (t.cmdArg = s.cmdArg ∨ t.cmdArg = capacity) ∧
    (t.status = s.status ∨ t.status ∈ [.badHeader, .packetOverSize, .badPacket, .crcError]) ∧
    (∀ a, t.hdr.size.toNat ≤ a → t.cbuf.read a = s.cbuf.read a) ∧
    (exec (.recv capacity) s = .next t ∨ s.sizeGuard →
      ∀ a, 500 ≤ a ∨ capacity.toNat ≤ a → t.cbuf.read a = s.cbuf.read a)

/-! ## SEND -/

/-- SEND writes the header and the payload as one frame inside one bracket, for any size (92_eei_decisions D11) and in
every status past the gate; the status is not written. The header is `HDR`, or a value of its own when nested
(92_eei_decisions D14); that the payload is a write of its own is 92_eei_decisions D18. A SEND past the gate stands at
each of its steps 2 to 5 until the transport has taken that step's request, and goes on to the next; a write joins `TX`
when it is asked for (log 19). -/
def Obligations.SendWritesOneFrame : Prop :=
  (∀ (s : State) (c : Caller) (dst : Byte) (size : U16) (p : List Byte) (t' : Transport),
    s.phase = c.restPhase → s.status ≠ .notInitialized → s.src.readBytes 0 size.toNat = some p →
    sendTaken s.transport t' →
    exec (.send dst size) s =
      .next (State.loadSendHdr
        { s with transport := t', cmdDst := dst, cmdArg := size,
                 tx := s.tx ++ sendFrame (s.sentHeader dst size p) p,
                 trace := s.trace ++ sendEvents (s.sentHeader dst size p) p,
                 responses := s.responses ++ [(c, .done)] } c (s.sentHeader dst size p))) ∧
  (∀ (s : State) (c : Caller) (dst : Byte) (size : U16) (p : List Byte), s.phase = c.restPhase →
    s.status ≠ .notInitialized → s.src.readBytes 0 size.toNat = some p →
    exec (.send dst size) s =
      goesOn (State.loadSendHdr
        { s with phase := .send2 c, cmdDst := dst, cmdArg := size,
                 trace := s.trace ++ [.request .tBeginTransmission] } c (s.sentHeader dst size p))) ∧
  (∀ (s : State) (c : Caller) (t : Transport), s.phase = .send2 c → s.transport.takeBeginTransmission = some t →
    step s =
      goesOn { s with transport := t, phase := .send3 c, tx := s.tx ++ buildHeader (s.sendHdr c),
                      trace := s.trace ++ [.request (.tWrite (buildHeader (s.sendHdr c)))] }) ∧
  (∀ (s : State) (c : Caller) (p : List Byte) (t : Transport), s.phase = .send3 c → s.transport.takeWrite = some t →
    s.src.readBytes 0 (s.sendHdr c).size.toNat = some p →
    step s =
      goesOn { s with transport := t, phase := .send4 c, tx := s.tx ++ p,
                      trace := s.trace ++ [.request (.tWrite p)] }) ∧
  (∀ (s : State) (c : Caller) (t : Transport), s.phase = .send4 c → s.transport.takeWrite = some t →
    step s =
      goesOn { s with transport := t, phase := .send5 c, trace := s.trace ++ [.request .tEndTransmission] }) ∧
  (∀ (s : State) (c : Caller) (t : Transport), s.phase = .send5 c → s.transport.takeEndTransmission = some t →
    step s =
      .next { s with transport := t, phase := c.restPhase, responses := s.responses ++ [(c, .done)] })

/-- What SEND leaves alone, in `exec` and in each step that goes on with it, from either caller: everything but its own
operands, its header, `TX`, the transport, the phase and the record of events, responses and rejections. The host's SEND
leaves the nested header alone, a nested one the header of the POLL around it. -/
def Obligations.SendFrame : Prop :=
  ∀ (s t : State) (c : Caller) (dst : Byte) (size : U16),
    ((s.phase = c.restPhase ∧ exec (.send dst size) s = .next t) ∨
      (step s = .next t ∧ s.phase ∈ [.send1 c, .send2 c, .send3 c, .send4 c, .send5 c] ∧ s.cmdDst = dst ∧
        s.cmdArg = size)) →
    t.status = s.status ∧ t.localId = s.localId ∧ t.handlerValid = s.handlerValid ∧ t.handlerRef = s.handlerRef ∧
    t.bufh = s.bufh ∧ t.drainLeft = s.drainLeft ∧ t.pbuf = s.pbuf ∧ t.cbuf = s.cbuf ∧ t.src = s.src ∧
    t.allocator = s.allocator ∧ t.handler = s.handler ∧ t.cmds = s.cmds ∧ t.crcUnit = s.crcUnit ∧
    t.draws = s.draws ∧ t.freeSource = s.freeSource ∧ (t.cmdDst = s.cmdDst ∨ t.cmdDst = dst) ∧
    (t.cmdArg = s.cmdArg ∨ t.cmdArg = size) ∧ (c = .handler → t.hdr = s.hdr) ∧
    (c = .host → t.nestedHdr = s.nestedHdr)

/-- A frame that is sent and reaches a peer of the same checksum function whole, over either reference transport (the
test environments of 92_eei_decisions D27, log 24), is received with its size, its header and its payload; the rest of
the peer's stream stays. -/
def Obligations.SendThenReceive : Prop :=
  ∀ (s r : State) (dst : Byte) (size capacity : U16) (p : List Byte) (t' : Transport) (more : List Byte)
    (line : List Byte → Transport),
    s.phase = .idle → s.status ≠ .notInitialized → s.src.readBytes 0 size.toNat = some p →
    sendTaken s.transport t' → size.toNat ≤ 500 →
    r.phase = .idle → r.status ≠ .notInitialized → r.crcUnit = s.crcUnit → size.toNat ≤ capacity.toNat →
    line = .queue ∨ line = .blocking →
    ∃ t f, exec (.send dst size) s = .next t ∧ t.tx = s.tx ++ f ∧ f.length = 6 + size.toNat ∧
      (r.transport = line (f ++ more) →
        ∃ u, exec (.recv capacity) r = .next u ∧ u.transport = line more ∧ u.status = r.status ∧ u.phase = .idle ∧
          u.cbuf.readBytes 0 size.toNat = some p ∧
          u.responses = r.responses ++
            [(.host, .recv size { src := localByte s.localId, dst := dst, size := size, crc := s.crcUnit.crc16 p })])

/-- On the reference bus (92_eei_decisions D27, log 24) the bytes a node's step adds to its `TX` reach every other node's
stream and not its own. All its nodes have the one `crc16` of the bus, before and after (00_scope R9). -/
def Obligations.BusDeliversToEveryOtherNode : Prop :=
  ∀ (b : Bus) (i : Nat) (s t : State), b.node i = some s → step s = .next t →
    ∃ b' : Bus, b.stepNode i = some (.next b') ∧ b'.nodes.length = b.nodes.length ∧ b'.node i = some t ∧
      (∀ j u, j ≠ i → b.node j = some u → b'.node j = some (u.hear (t.tx.drop s.tx.length))) ∧
      (∀ j u v, b.node j = some u → b'.node j = some v → u.crcUnit = s.crcUnit ∧ v.crcUnit = s.crcUnit)

/-! ## Units -/

/-- The header deserializer: six bytes always give a header, the 16-bit fields low byte first (92_eei_decisions D6,
log 17), and other lengths give none. -/
def Obligations.ParseHeaderFields : Prop :=
  (∀ b0 b1 b2 b3 b4 b5 : Byte,
    ∃ h, parseHeader [b0, b1, b2, b3, b4, b5] = some h ∧ h.src = b0 ∧ h.dst = b1 ∧
      h.size.toNat = b2.toNat + 256 * b3.toNat ∧ h.crc.toNat = b4.toNat + 256 * b5.toNat) ∧
  (∀ b : List Byte, b.length ≠ 6 → parseHeader b = none)

/-- Building and parsing a header are inverse to each other, between the headers and the sequences of six bytes. -/
def Obligations.HeaderRoundTrip : Prop :=
  (∀ h : Header, (buildHeader h).length = 6 ∧ parseHeader (buildHeader h) = some h) ∧
  (∀ b : List Byte, b.length = 6 → ∃ h : Header, parseHeader b = some h ∧ buildHeader h = b) ∧
  (∀ (b : List Byte) (h : Header), parseHeader b = some h → buildHeader h = b)

/-- The size validator: unsigned and strict, in RECV against the capacity too. -/
def Obligations.OverSizeIsStrict : Prop :=
  ∀ size capacity : U16,
    (overSizePoll size = true ↔ 500 < size.toNat) ∧
    (overSizeRecv size capacity = true ↔ 500 < size.toNat ∨ capacity.toNat < size.toNat)

/-- The CRC comparator: equality of two 16-bit values, over the payload bytes only. That an instance's function is the
uninterpreted constant, or the one of the test vectors, is the model's choice (log 13). -/
def Obligations.CrcComparator : Prop :=
  ∀ (u : CrcUnit) (p : List Byte) (crc : U16),
    (crcOK u p crc = true ↔ u.crc16 p = crc) ∧ CrcUnit.crc16 .uninterpreted p = Config.crc16 p

/-- The address filter: the node's own id or 255, and nothing else. Only POLL uses it: under another id RECV goes the
same way, the same free values being drawn in both (the model's choice, log 6). -/
def Obligations.AddressFilter : Prop :=
  (∀ (id : Fin 255) (dst : Byte), addrAccept id dst = true ↔ dst.toNat = id.val ∨ dst.toNat = 255) ∧
  (∀ (s : State) (capacity : U16) (id : Fin 255),
    exec (.recv capacity) { s with localId := id } = mapNext (fun t => { t with localId := id }) (exec (.recv capacity) s))

/-- A drain of `n` issues exactly `n` reads, each after the answer to the one before, whatever they answer; it drops
every answer and changes nothing but its own counter and the transport, and a drain of none issues nothing. While the
transport has answered fewer, the drain stands at the next read, and nothing makes it end. A drain that stands at a read
already issued goes on with exactly the reads its counter still has, that one the first. -/
def Obligations.DrainIssuesExactlyN : Prop :=
  ∀ (s : State) (p : Phase) (n : U16) (fin : State → State),
    (∀ (vs : List (Option Byte)) (t : Transport), drainAnswered s.transport n vs t →
      (s.beginDrain p n).awaitDrain fin =
        .next (fin { s with phase := p, drainLeft := 0, transport := t, trace := s.trace ++ drainTrace vs }) ∧
      readRequests (drainTrace vs) = n.toNat) ∧
    (∀ (vs : List (Option Byte)) (t : Transport), s.transport.drain n.toNat = (vs, t) → vs.length < n.toNat →
      ∃ left : U16, left.toNat + vs.length = n.toNat ∧
        (s.beginDrain p n).awaitDrain fin =
          .next { s with phase := p, drainLeft := left, transport := t,
                         trace := s.trace ++ drainTrace vs ++ [.request .tRead] }) ∧
    (∀ (vs : List (Option Byte)) (t : Transport), s.drainLeft ≠ 0 → drainAnswered s.transport s.drainLeft vs t →
      ∃ es, .request .tRead :: es = drainTrace vs ∧ readRequests es + 1 = s.drainLeft.toNat ∧
        s.awaitDrain fin = .next (fin { s with drainLeft := 0, transport := t, trace := s.trace ++ es })) ∧
    (∀ (vs : List (Option Byte)) (t : Transport), s.transport.drain s.drainLeft.toNat = (vs, t) →
      vs.length < s.drainLeft.toNat →
      ∃ (es : List Event) (left : U16), .request .tRead :: es = drainTrace vs ++ [.request .tRead] ∧
        left.toNat + vs.length = s.drainLeft.toNat ∧
        s.awaitDrain fin = .next { s with drainLeft := left, transport := t, trace := s.trace ++ es })

/-- What breaks an assumption has no meaning, by name: an answer to a read that breaks the contract
(92_eei_decisions D26), and a SEND whose `SRC` is shorter than its `size` (70_reset_and_hazards section 4, log 12). -/
def Obligations.BrokenAssumptionsAreRefused : Prop :=
  (∀ (s : State) (n k : U16) (d : List Byte) (t : Transport) (cont : U16 → List Byte → State → Result),
    s.transport.readBytes n = some (k, d, t) → n < k ∨ d.length ≠ k.toNat →
    s.awaitReadBytes n cont = .refused .transportContract) ∧
  (∀ (s : State) (c : Caller) (dst : Byte) (size : U16), s.phase = c.restPhase → s.status ≠ .notInitialized →
    s.src.readBytes 0 size.toNat = none → exec (.send dst size) s = .refused (.bufferByteMissing .src))

/-! ## Whole-machine rules -/

/-- The node id never changes, a registered handler is never removed, and no step returns to `NotInitialized`. -/
def Obligations.LifetimeRegistersAreMonotone : Prop :=
  ∀ s t : State, step s = .next t →
    t.localId = s.localId ∧ (s.handlerValid = true → t.handlerValid = true) ∧
    (s.status ≠ .notInitialized → t.status ≠ .notInitialized)

/-- The writers of `STATUS` are exactly BEGIN, POLL and RECV, each with its own values: a stored error is cleared by
BEGIN only. -/
def Obligations.StatusWriters : Prop :=
  ∀ s t : State, step s = .next t → t.status ≠ s.status →
    (s.runsBegin ∧ t.status = .ready) ∨
    (s.runsPoll ∧ t.status ∈ [.badHeader, .packetOverSize, .allocationFailure, .badPacket]) ∨
    (s.runsRecv ∧ t.status ∈ [.badHeader, .packetOverSize, .badPacket, .crcError])

/-- No status is written between the start of a dispatch and the end of its POLL. -/
def Obligations.DispatchWritesNoStatus : Prop :=
  ∀ s t : State, s.phase.inDispatch = true → step s = .next t → t.status = s.status

/-- The trace, `TX`, the responses and the rejections only grow: what has happened stays. -/
def Obligations.RecordsOnlyGrow : Prop :=
  ∀ s t : State, step s = .next t →
    s.trace <+: t.trace ∧ s.tx <+: t.tx ∧ s.responses <+: t.responses ∧ s.rejected <+: t.rejected

/-- Every operation of the host and every command of the handler ends with exactly one response. A step that ends in rest
gives the host exactly one response and the handler none; any other step gives the host none. A step from within a
dispatch that ends in the dispatch gives the handler exactly one; any other step that does not end in rest gives
nobody a response. -/
def Obligations.OneResponsePerOperation : Prop :=
  ∀ s t : State, step s = .next t →
    (t.phase = .idle → ∃ r, t.responses = s.responses ++ [(.host, r)]) ∧
    (t.phase = .dispatch → s.phase.inDispatch = true → ∃ r, t.responses = s.responses ++ [(.handler, r)]) ∧
    (t.phase = .dispatch → s.phase.inDispatch = false → t.responses = s.responses) ∧
    (t.phase ≠ .idle → t.phase ≠ .dispatch → t.responses = s.responses)

/-- Every buffer stays in canonical form. -/
def Obligations.StepKeepsBuffersCanonical : Prop :=
  ∀ s t : State, s.canonical → step s = .next t → t.canonical

/-- Acquires and releases pair up, and a buffer is held exactly in the steps of the rule. -/
def Obligations.StepKeepsBufferDiscipline : Prop :=
  ∀ s t : State, s.bufferDiscipline → step s = .next t → t.bufferDiscipline

/-- No write outside a bracket and no bracket inside another. -/
def Obligations.StepKeepsBracketDiscipline : Prop :=
  ∀ s t : State, s.bracketDiscipline → step s = .next t → t.bracketDiscipline

/-- Handler calls and returns pair up, and a call stands only for an accepted packet with a handler registered. -/
def Obligations.StepKeepsDispatchDiscipline : Prop :=
  ∀ s t : State, s.dispatchDiscipline → step s = .next t → t.dispatchDiscipline

/-- Past the size check the header's size is within the limits, and past the gate the status is not
`NotInitialized`. -/
def Obligations.StepKeepsSizeAndGateGuards : Prop :=
  (∀ s t : State, s.sizeGuard → step s = .next t → t.sizeGuard) ∧
  (∀ s t : State, s.gateGuard → step s = .next t → t.gateGuard)

/-- Every invariant above holds right after reset. -/
def Obligations.ResetMeetsTheInvariants : Prop :=
  State.reset.canonical ∧ State.reset.bufferDiscipline ∧ State.reset.bracketDiscipline ∧
  State.reset.dispatchDiscipline ∧ State.reset.sizeGuard ∧ State.reset.gateGuard

/-- What reset leaves, where the spec gives a value (92_eei_decisions D7). -/
def Obligations.ResetValues : Prop :=
  State.reset.status = .notInitialized ∧ State.reset.handlerValid = false ∧ State.reset.phase = .idle ∧
  State.reset.bufh = none ∧ State.reset.localId = Config.localId ∧ State.reset.trace = []

/-- When the engine waits, rests or stops. It waits on a channel exactly in the steps of the rules that ask there, while
the answer is missing; it rests exactly when no operation is in progress and no command is there. Otherwise a step
answers a next state, or one of the two refusals of a broken assumption; and a step goes as far as the answers go: it
ends at rest, in a dispatch, or where the next answer is missing (log 9, log 14). -/
def Obligations.WhenTheEngineWaitsRestsOrStops : Prop :=
  ∀ s : State,
    (step s = .fault (.waiting .tBegin) ↔ s.phase = .begin1 ∧ s.transport.takeBegin = none) ∧
    (step s = .fault (.waiting .tAvailable) ↔ s.phase = .poll0 ∧ s.transport.available = none) ∧
    (step s = .fault (.waiting .tReadBytes) ↔
      (s.phase ∈ [.poll1, .recv1] ∧ s.transport.readBytes 6 = none) ∨
      (s.phase ∈ [.poll4, .recv3] ∧ s.transport.readBytes s.hdr.size = none)) ∧
    (step s = .fault (.waiting .tRead) ↔
      s.phase ∈ [.poll2, .recv2] ∧ s.drainLeft ≠ 0 ∧ s.transport.read = none) ∧
    (step s = .fault (.waiting .tBeginTransmission) ↔
      (∃ c, s.phase = .send2 c) ∧ s.transport.takeBeginTransmission = none) ∧
    (step s = .fault (.waiting .tWrite) ↔
      (∃ c, s.phase = .send3 c ∨ s.phase = .send4 c) ∧ s.transport.takeWrite = none) ∧
    (step s = .fault (.waiting .tEndTransmission) ↔
      (∃ c, s.phase = .send5 c) ∧ s.transport.takeEndTransmission = none) ∧
    (step s = .fault (.waiting .aAcquire) ↔ s.phase = .poll3 ∧ s.allocator.acquire = none) ∧
    (step s = .fault (.waiting .hHandle) ↔ s.phase = .dispatch ∧ s.handler = []) ∧
    (step s = .fault .atRest ↔ s.phase = .idle ∧ s.cmds = []) ∧
    ((∃ t, step s = .next t) ∨ (∃ f, step s = .fault f) ∨ step s = .refused .transportContract ∨
      ∃ sp, step s = .refused (.bufferByteMissing sp)) ∧
    (∀ t, step s = .next t →
      t.phase = .idle ∨ t.phase = .dispatch ∨ ∃ ch, step t = .fault (.waiting ch))

/-- A move of another agent writes no register of the engine and none of its records, and only a move on the awaited
channel ends a wait: the collaborator's answer there, bytes that reach a reference transport's queue, or in a dispatch
the handler's move. -/
def Obligations.OnlyTheCollaboratorEndsAWait : Prop :=
  (∀ (s : State) (m : Move),
    { s with transport := (s.environment m).transport, allocator := (s.environment m).allocator,
             cmds := (s.environment m).cmds, handler := (s.environment m).handler } = s.environment m) ∧
  (∀ (s : State) (ch : Channel) (m : Move), s.waitingOn = some ch → m.mayEnd ch = false →
    (s.environment m).waitingOn = some ch)

/-- What the lifecycle operations leave alone, in `exec` and in the step that goes on with a BEGIN: HASERR, GETERR, SETH,
BEGIN and RECVL touch no header, no buffer, no operand and no byte; only BEGIN asks the transport and writes the status,
and only SETH writes the registration. -/
def Obligations.LifecycleFrame : Prop :=
  (∀ (i : Instr) (s t : State), i ∈ [.begin, .haserr, .geterr] ∨ (∃ r, i = .seth r) ∨ (∃ b, i = .recvl b) →
    exec i s = .next t →
    t.localId = s.localId ∧ t.hdr = s.hdr ∧ t.bufh = s.bufh ∧ t.cmdDst = s.cmdDst ∧ t.cmdArg = s.cmdArg ∧
    t.nestedHdr = s.nestedHdr ∧ t.drainLeft = s.drainLeft ∧ t.pbuf = s.pbuf ∧ t.cbuf = s.cbuf ∧ t.src = s.src ∧
    t.tx = s.tx ∧ t.allocator = s.allocator ∧ t.handler = s.handler ∧ t.cmds = s.cmds ∧ t.crcUnit = s.crcUnit ∧
    t.draws = s.draws ∧ t.freeSource = s.freeSource ∧
    (i ≠ .begin → t.status = s.status ∧ t.phase = s.phase ∧ t.transport = s.transport ∧ t.trace = s.trace) ∧
    ((∀ r, i ≠ .seth r) → t.handlerValid = s.handlerValid ∧ t.handlerRef = s.handlerRef)) ∧
  (∀ s t : State, s.phase = .begin1 → step s = .next t →
    t = { s with phase := .idle, transport := t.transport, status := .ready,
                 responses := s.responses ++ [(.host, .done)] })
end

