-- ==== Sys2Proof/Laws/Buffers.lean ====
section
/-! SUPPORT. What buffer reads and writes do: read after write, and the canonical form. -/

namespace Sys2Proof.Machine

@[simp] theorem Memory.read_write_same (m : Memory) (a : Nat) (b : Byte) : (m.write a b).read a = some b := by
  induction m with
  | nil => simp [Memory.write, Memory.read]
  | cons c rest ih =>
    simp only [Memory.write]
    split
    · simp [Memory.read]
    · split
      · simp [Memory.read]
      · simp [Memory.read, *]

theorem Memory.read_write_other (m : Memory) (a x : Nat) (b : Byte) (h : x ≠ a) :
    (m.write a b).read x = m.read x := by
  induction m with
  | nil => simp [Memory.write, Memory.read, h]
  | cons c rest ih =>
    simp only [Memory.write]
    split
    · simp [Memory.read, h]
    · split
      · rename_i h2; simp [Memory.read, h, h2 ▸ h]
      · simp [Memory.read, ih]

/-- A write of many bytes leaves every offset outside them alone. -/
theorem Memory.read_writeBytes_outside (d : List Byte) (m : Memory) (a x : Nat) (h : x < a ∨ a + d.length ≤ x) :
    (m.writeBytes a d).read x = m.read x := by
  induction d generalizing m a with
  | nil => rfl
  | cons b d ih =>
    simp only [List.length_cons] at h
    rw [Memory.writeBytes, ih _ _ (by omega), Memory.read_write_other _ _ _ _ (by omega)]

/-- Reading back the bytes just written gives them. -/
theorem Memory.readBytes_writeBytes (d : List Byte) (m : Memory) (a : Nat) :
    (m.writeBytes a d).readBytes a d.length = some d := by
  induction d generalizing m a with
  | nil => rfl
  | cons b d ih =>
    have h : ((m.write a b).writeBytes (a + 1) d).read a = some b := by
      rw [Memory.read_writeBytes_outside _ _ _ _ (by omega), Memory.read_write_same]
    simp [Memory.writeBytes, Memory.readBytes, h, ih]

theorem Memory.readBytes_length (m : Memory) (n a : Nat) (d : List Byte) (h : m.readBytes a n = some d) :
    d.length = n := by
  induction n generalizing a d with
  | zero => simp_all [Memory.readBytes]
  | succ n ih =>
    simp only [Memory.readBytes] at h
    split at h
    · simp at h
    · split at h
      · simp at h
      · rename_i heq; simp only [Option.some.injEq] at h; subst h; simp [ih _ _ heq]

/-- The canonical form of a list with a first cell: what follows is canonical, and lies above it. -/
theorem Memory.wf_cons (c : Host.Cell) (m : Memory) :
    Memory.wf (c :: m) = true ↔ Memory.wf m = true ∧ ∀ d, m.head? = some d → c.1 < d.1 := by
  cases m <;> simp [Memory.wf, and_comm]

theorem Memory.head_write (m : Memory) (a : Nat) (b : Byte) (c : Host.Cell) (h : (m.write a b).head? = some c) :
    c.1 = a ∨ m.head? = some c := by
  cases m with
  | nil => simp [Memory.write] at h; simp [← h]
  | cons d rest =>
    simp only [Memory.write] at h
    split at h
    · simp at h; simp [← h]
    · split at h <;> simp at h <;> simp [← h]

/-- A write keeps the canonical form. -/
theorem Memory.wf_write (m : Memory) (a : Nat) (b : Byte) (h : m.wf = true) : (m.write a b).wf = true := by
  induction m with
  | nil => rfl
  | cons c rest ih =>
    have hc := (Memory.wf_cons c rest).1 h
    simp only [Memory.write]
    split
    · exact (Memory.wf_cons _ _).2 ⟨h, by simpa using ‹a < c.1›⟩
    · split
      · rename_i he; exact (Memory.wf_cons _ _).2 ⟨hc.1, fun d hd => he ▸ hc.2 d hd⟩
      · refine (Memory.wf_cons _ _).2 ⟨ih hc.1, fun d hd => ?_⟩
        rcases Memory.head_write _ _ _ _ hd with hd | hd
        · omega
        · exact hc.2 d hd

/-- A write of many bytes keeps the canonical form. -/
theorem Memory.wf_writeBytes (d : List Byte) (m : Memory) (a : Nat) (h : m.wf = true) :
    (m.writeBytes a d).wf = true := by
  induction d generalizing m a with
  | nil => exact h
  | cons b d ih => exact ih _ _ (Memory.wf_write _ _ _ h)

@[simp] theorem Memory.wf_nil : Memory.wf [] = true := rfl

/-- Every cell after a write was there before or is the one written. -/
theorem Memory.mem_write (m : Memory) (a : Nat) (b : Byte) (c : Host.Cell) (h : c ∈ m.write a b) :
    c.1 = a ∨ c ∈ m := by
  induction m with
  | nil => simp [Memory.write] at h; simp [h]
  | cons d rest ih =>
    simp only [Memory.write] at h
    split at h
    · simp only [List.mem_cons] at h ⊢; rcases h with h | h <;> simp_all
    · split at h
      · simp only [List.mem_cons] at h ⊢; rcases h with h | h <;> simp_all
      · simp only [List.mem_cons] at h ⊢
        rcases h with h | h
        · exact .inr (.inl h)
        · rcases ih h with h | h
          · exact .inl h
          · exact .inr (.inr h)

/-- Every cell after a write of many bytes was there before or lies among those written. -/
theorem Memory.mem_writeBytes (d : List Byte) (m : Memory) (a : Nat) (c : Host.Cell) (h : c ∈ m.writeBytes a d) :
    (a ≤ c.1 ∧ c.1 < a + d.length) ∨ c ∈ m := by
  induction d generalizing m a with
  | nil => exact .inr h
  | cons b d ih =>
    simp only [List.length_cons]
    rcases ih _ _ h with h | h
    · exact .inl (by omega)
    · rcases Memory.mem_write _ _ _ _ h with h | h
      · exact .inl (by omega)
      · exact .inr h

end Sys2Proof.Machine
end

