-- ==== Sys2Proof/Laws/Encoding.lean ====
section
/-! SUPPORT. The fields of a packed command word. -/

namespace Sys2Proof

/-- Where each bit of a packed word comes from (30_encoding R77). -/
theorem packWord_getLsbD (op : BitVec 4) (d : Byte) (a : U16) (i : Nat) :
    (packWord op d a).getLsbD i =
      if i < 16 then a.getLsbD i else if i < 24 then d.getLsbD (i - 16)
      else if i < 28 then false else op.getLsbD (i - 28) := by
  unfold packWord
  erw [BitVec.getLsbD_append, BitVec.getLsbD_append, BitVec.getLsbD_append]
  by_cases h1 : i < 16
  · simp [h1, show i < 28 by omega, show i < 24 by omega]
  · by_cases h2 : i < 24
    · simp [h1, h2, show i < 28 by omega]
    · by_cases h3 : i < 28
      · simp [h1, h2, h3]
      · simp [h1, h2, h3]

theorem opField_packWord (op : BitVec 4) (d : Byte) (a : U16) : opField (packWord op d a) = op := by
  apply BitVec.eq_of_getLsbD_eq
  intro i hi
  simp [opField, packWord_getLsbD, hi, show ¬28 + i < 16 by omega, show ¬28 + i < 24 by omega]

theorem zField_packWord (op : BitVec 4) (d : Byte) (a : U16) : zField (packWord op d a) = 0 := by
  apply BitVec.eq_of_getLsbD_eq
  intro i hi
  simp [zField, packWord_getLsbD, hi, show ¬24 + i < 16 by omega, show ¬24 + i < 24 by omega,
    show 24 + i < 28 by omega]

theorem dstField_packWord (op : BitVec 4) (d : Byte) (a : U16) : dstField (packWord op d a) = d := by
  apply BitVec.eq_of_getLsbD_eq
  intro i hi
  simp [dstField, packWord_getLsbD, hi, show ¬16 + i < 16 by omega, show 16 + i < 24 by omega]

theorem argField_packWord (op : BitVec 4) (d : Byte) (a : U16) : argField (packWord op d a) = a := by
  apply BitVec.eq_of_getLsbD_eq
  intro i hi
  simp [argField, packWord_getLsbD, hi]

/-- Where each bit of a RECVL word comes from (30_encoding R78). -/
theorem encode_recvl_getLsbD (r : BitVec 28) (i : Nat) :
    (encode (.recvl r)).getLsbD i = if i < 28 then r.getLsbD i else (7#4).getLsbD (i - 28) := by
  unfold encode
  erw [BitVec.getLsbD_append]
  rfl

theorem opField_encode_recvl (r : BitVec 28) : opField (encode (.recvl r)) = 7 := by
  apply BitVec.eq_of_getLsbD_eq
  intro i hi
  simp [opField, encode_recvl_getLsbD, hi]

end Sys2Proof
end

