-- ==== Sys2Proof/Laws/Environment.lean ====
section
/-! SUPPORT. A move that cannot end a wait leaves the awaited answer missing. -/

namespace Sys2Proof.Machine

theorem Transport.takeBegin_give {t : Transport} {m : Move} (h : t.takeBegin = none)
    (hm : m.mayEnd .tBegin = false) : (t.give m).takeBegin = none := by
  cases t with
  | answers a =>
    cases hb : a.begins <;> cases m <;>
      simp_all [Transport.give, TransportAnswers.give, Transport.takeBegin, Move.mayEnd]
  | queue q => cases h
  | blocking q => cases h

theorem Transport.available_give {t : Transport} {m : Move} (h : t.available = none)
    (hm : m.mayEnd .tAvailable = false) : (t.give m).available = none := by
  cases t with
  | answers a =>
    cases hb : a.avail <;> cases m <;>
      simp_all [Transport.give, TransportAnswers.give, Transport.available, Move.mayEnd]
  | queue q => cases h
  | blocking q => cases h

theorem Transport.readBytes_give {t : Transport} {n : U16} {m : Move} (h : t.readBytes n = none)
    (hm : m.mayEnd .tReadBytes = false) : (t.give m).readBytes n = none := by
  cases t with
  | answers a =>
    cases hb : a.readBytes <;> cases m <;>
      simp_all [Transport.give, TransportAnswers.give, Transport.readBytes, Move.mayEnd]
  | queue q => cases h
  | blocking q => cases m <;> simp_all [Transport.give, Move.onQueue, Transport.readBytes, Move.mayEnd]

theorem Transport.read_give {t : Transport} {m : Move} (h : t.read = none)
    (hm : m.mayEnd .tRead = false) : (t.give m).read = none := by
  cases t with
  | answers a =>
    cases hb : a.reads <;> cases m <;>
      simp_all [Transport.give, TransportAnswers.give, Transport.read, Move.mayEnd]
  | queue q => cases q <;> cases h
  | blocking q => cases m <;> simp_all [Transport.give, Move.onQueue, Transport.read, Move.mayEnd]

theorem Transport.takeBeginTransmission_give {t : Transport} {m : Move} (h : t.takeBeginTransmission = none)
    (hm : m.mayEnd .tBeginTransmission = false) : (t.give m).takeBeginTransmission = none := by
  cases t with
  | answers a =>
    cases hb : a.txBegins <;> cases m <;>
      simp_all [Transport.give, TransportAnswers.give, Transport.takeBeginTransmission, Move.mayEnd]
  | queue q => cases h
  | blocking q => cases h

theorem Transport.takeWrite_give {t : Transport} {m : Move} (h : t.takeWrite = none)
    (hm : m.mayEnd .tWrite = false) : (t.give m).takeWrite = none := by
  cases t with
  | answers a =>
    cases hb : a.writes <;> cases m <;>
      simp_all [Transport.give, TransportAnswers.give, Transport.takeWrite, Move.mayEnd]
  | queue q => cases h
  | blocking q => cases h

theorem Transport.takeEndTransmission_give {t : Transport} {m : Move} (h : t.takeEndTransmission = none)
    (hm : m.mayEnd .tEndTransmission = false) : (t.give m).takeEndTransmission = none := by
  cases t with
  | answers a =>
    cases hb : a.txEnds <;> cases m <;>
      simp_all [Transport.give, TransportAnswers.give, Transport.takeEndTransmission, Move.mayEnd]
  | queue q => cases h
  | blocking q => cases h

theorem Allocator.acquire_give {a : Allocator} {m : Move} (h : a.acquire = none)
    (hm : m.mayEnd .aAcquire = false) : (a.give m).acquire = none := by
  cases a with
  | answers l => cases l <;> cases m <;> simp_all [Allocator.acquire, Allocator.give, Move.mayEnd]
  | alwaysOk g => cases h

end Sys2Proof.Machine
end

