-- ==== Sys2Proof/Laws/State.lean ====
section
/-! SUPPORT. What each shared update does to each field of the state. -/

namespace Sys2Proof.Machine

/-! ### emit -/

@[simp] theorem State.emit_localId (s : State) (es : List Event) :
    (s.emit es).localId = s.localId := rfl
@[simp] theorem State.emit_status (s : State) (es : List Event) :
    (s.emit es).status = s.status := rfl
@[simp] theorem State.emit_handlerValid (s : State) (es : List Event) :
    (s.emit es).handlerValid = s.handlerValid := rfl
@[simp] theorem State.emit_handlerRef (s : State) (es : List Event) :
    (s.emit es).handlerRef = s.handlerRef := rfl
@[simp] theorem State.emit_hdr (s : State) (es : List Event) :
    (s.emit es).hdr = s.hdr := rfl
@[simp] theorem State.emit_bufh (s : State) (es : List Event) :
    (s.emit es).bufh = s.bufh := rfl
@[simp] theorem State.emit_phase (s : State) (es : List Event) :
    (s.emit es).phase = s.phase := rfl
@[simp] theorem State.emit_cmdDst (s : State) (es : List Event) :
    (s.emit es).cmdDst = s.cmdDst := rfl
@[simp] theorem State.emit_cmdArg (s : State) (es : List Event) :
    (s.emit es).cmdArg = s.cmdArg := rfl
@[simp] theorem State.emit_nestedHdr (s : State) (es : List Event) :
    (s.emit es).nestedHdr = s.nestedHdr := rfl
@[simp] theorem State.emit_drainLeft (s : State) (es : List Event) :
    (s.emit es).drainLeft = s.drainLeft := rfl
@[simp] theorem State.emit_pbuf (s : State) (es : List Event) :
    (s.emit es).pbuf = s.pbuf := rfl
@[simp] theorem State.emit_cbuf (s : State) (es : List Event) :
    (s.emit es).cbuf = s.cbuf := rfl
@[simp] theorem State.emit_src (s : State) (es : List Event) :
    (s.emit es).src = s.src := rfl
@[simp] theorem State.emit_tx (s : State) (es : List Event) :
    (s.emit es).tx = s.tx := rfl
@[simp] theorem State.emit_transport (s : State) (es : List Event) :
    (s.emit es).transport = s.transport := rfl
@[simp] theorem State.emit_allocator (s : State) (es : List Event) :
    (s.emit es).allocator = s.allocator := rfl
@[simp] theorem State.emit_handler (s : State) (es : List Event) :
    (s.emit es).handler = s.handler := rfl
@[simp] theorem State.emit_cmds (s : State) (es : List Event) :
    (s.emit es).cmds = s.cmds := rfl
@[simp] theorem State.emit_crcUnit (s : State) (es : List Event) :
    (s.emit es).crcUnit = s.crcUnit := rfl
@[simp] theorem State.emit_trace (s : State) (es : List Event) :
    (s.emit es).trace = s.trace ++ es := rfl
@[simp] theorem State.emit_responses (s : State) (es : List Event) :
    (s.emit es).responses = s.responses := rfl
@[simp] theorem State.emit_rejected (s : State) (es : List Event) :
    (s.emit es).rejected = s.rejected := rfl
@[simp] theorem State.emit_draws (s : State) (es : List Event) :
    (s.emit es).draws = s.draws := rfl
@[simp] theorem State.emit_freeSource (s : State) (es : List Event) :
    (s.emit es).freeSource = s.freeSource := rfl

/-! ### request -/

@[simp] theorem State.request_localId (s : State) (p : Phase) (r : Request) :
    (s.request p r).localId = s.localId := rfl
@[simp] theorem State.request_status (s : State) (p : Phase) (r : Request) :
    (s.request p r).status = s.status := rfl
@[simp] theorem State.request_handlerValid (s : State) (p : Phase) (r : Request) :
    (s.request p r).handlerValid = s.handlerValid := rfl
@[simp] theorem State.request_handlerRef (s : State) (p : Phase) (r : Request) :
    (s.request p r).handlerRef = s.handlerRef := rfl
@[simp] theorem State.request_hdr (s : State) (p : Phase) (r : Request) :
    (s.request p r).hdr = s.hdr := rfl
@[simp] theorem State.request_bufh (s : State) (p : Phase) (r : Request) :
    (s.request p r).bufh = s.bufh := rfl
@[simp] theorem State.request_phase (s : State) (p : Phase) (r : Request) :
    (s.request p r).phase = p := rfl
@[simp] theorem State.request_cmdDst (s : State) (p : Phase) (r : Request) :
    (s.request p r).cmdDst = s.cmdDst := rfl
@[simp] theorem State.request_cmdArg (s : State) (p : Phase) (r : Request) :
    (s.request p r).cmdArg = s.cmdArg := rfl
@[simp] theorem State.request_nestedHdr (s : State) (p : Phase) (r : Request) :
    (s.request p r).nestedHdr = s.nestedHdr := rfl
@[simp] theorem State.request_drainLeft (s : State) (p : Phase) (r : Request) :
    (s.request p r).drainLeft = s.drainLeft := rfl
@[simp] theorem State.request_pbuf (s : State) (p : Phase) (r : Request) :
    (s.request p r).pbuf = s.pbuf := rfl
@[simp] theorem State.request_cbuf (s : State) (p : Phase) (r : Request) :
    (s.request p r).cbuf = s.cbuf := rfl
@[simp] theorem State.request_src (s : State) (p : Phase) (r : Request) :
    (s.request p r).src = s.src := rfl
@[simp] theorem State.request_tx (s : State) (p : Phase) (r : Request) :
    (s.request p r).tx = s.tx := rfl
@[simp] theorem State.request_transport (s : State) (p : Phase) (r : Request) :
    (s.request p r).transport = s.transport := rfl
@[simp] theorem State.request_allocator (s : State) (p : Phase) (r : Request) :
    (s.request p r).allocator = s.allocator := rfl
@[simp] theorem State.request_handler (s : State) (p : Phase) (r : Request) :
    (s.request p r).handler = s.handler := rfl
@[simp] theorem State.request_cmds (s : State) (p : Phase) (r : Request) :
    (s.request p r).cmds = s.cmds := rfl
@[simp] theorem State.request_crcUnit (s : State) (p : Phase) (r : Request) :
    (s.request p r).crcUnit = s.crcUnit := rfl
@[simp] theorem State.request_trace (s : State) (p : Phase) (r : Request) :
    (s.request p r).trace = s.trace ++ [.request r] := rfl
@[simp] theorem State.request_responses (s : State) (p : Phase) (r : Request) :
    (s.request p r).responses = s.responses := rfl
@[simp] theorem State.request_rejected (s : State) (p : Phase) (r : Request) :
    (s.request p r).rejected = s.rejected := rfl
@[simp] theorem State.request_draws (s : State) (p : Phase) (r : Request) :
    (s.request p r).draws = s.draws := rfl
@[simp] theorem State.request_freeSource (s : State) (p : Phase) (r : Request) :
    (s.request p r).freeSource = s.freeSource := rfl

/-! ### requestWrite -/

@[simp] theorem State.requestWrite_localId (s : State) (p : Phase) (d : List Byte) :
    (s.requestWrite p d).localId = s.localId := rfl
@[simp] theorem State.requestWrite_status (s : State) (p : Phase) (d : List Byte) :
    (s.requestWrite p d).status = s.status := rfl
@[simp] theorem State.requestWrite_handlerValid (s : State) (p : Phase) (d : List Byte) :
    (s.requestWrite p d).handlerValid = s.handlerValid := rfl
@[simp] theorem State.requestWrite_handlerRef (s : State) (p : Phase) (d : List Byte) :
    (s.requestWrite p d).handlerRef = s.handlerRef := rfl
@[simp] theorem State.requestWrite_hdr (s : State) (p : Phase) (d : List Byte) :
    (s.requestWrite p d).hdr = s.hdr := rfl
@[simp] theorem State.requestWrite_bufh (s : State) (p : Phase) (d : List Byte) :
    (s.requestWrite p d).bufh = s.bufh := rfl
@[simp] theorem State.requestWrite_phase (s : State) (p : Phase) (d : List Byte) :
    (s.requestWrite p d).phase = p := rfl
@[simp] theorem State.requestWrite_cmdDst (s : State) (p : Phase) (d : List Byte) :
    (s.requestWrite p d).cmdDst = s.cmdDst := rfl
@[simp] theorem State.requestWrite_cmdArg (s : State) (p : Phase) (d : List Byte) :
    (s.requestWrite p d).cmdArg = s.cmdArg := rfl
@[simp] theorem State.requestWrite_nestedHdr (s : State) (p : Phase) (d : List Byte) :
    (s.requestWrite p d).nestedHdr = s.nestedHdr := rfl
@[simp] theorem State.requestWrite_drainLeft (s : State) (p : Phase) (d : List Byte) :
    (s.requestWrite p d).drainLeft = s.drainLeft := rfl
@[simp] theorem State.requestWrite_pbuf (s : State) (p : Phase) (d : List Byte) :
    (s.requestWrite p d).pbuf = s.pbuf := rfl
@[simp] theorem State.requestWrite_cbuf (s : State) (p : Phase) (d : List Byte) :
    (s.requestWrite p d).cbuf = s.cbuf := rfl
@[simp] theorem State.requestWrite_src (s : State) (p : Phase) (d : List Byte) :
    (s.requestWrite p d).src = s.src := rfl
@[simp] theorem State.requestWrite_tx (s : State) (p : Phase) (d : List Byte) :
    (s.requestWrite p d).tx = s.tx ++ d := rfl
@[simp] theorem State.requestWrite_transport (s : State) (p : Phase) (d : List Byte) :
    (s.requestWrite p d).transport = s.transport := rfl
@[simp] theorem State.requestWrite_allocator (s : State) (p : Phase) (d : List Byte) :
    (s.requestWrite p d).allocator = s.allocator := rfl
@[simp] theorem State.requestWrite_handler (s : State) (p : Phase) (d : List Byte) :
    (s.requestWrite p d).handler = s.handler := rfl
@[simp] theorem State.requestWrite_cmds (s : State) (p : Phase) (d : List Byte) :
    (s.requestWrite p d).cmds = s.cmds := rfl
@[simp] theorem State.requestWrite_crcUnit (s : State) (p : Phase) (d : List Byte) :
    (s.requestWrite p d).crcUnit = s.crcUnit := rfl
@[simp] theorem State.requestWrite_trace (s : State) (p : Phase) (d : List Byte) :
    (s.requestWrite p d).trace = s.trace ++ [.request (.tWrite d)] := rfl
@[simp] theorem State.requestWrite_responses (s : State) (p : Phase) (d : List Byte) :
    (s.requestWrite p d).responses = s.responses := rfl
@[simp] theorem State.requestWrite_rejected (s : State) (p : Phase) (d : List Byte) :
    (s.requestWrite p d).rejected = s.rejected := rfl
@[simp] theorem State.requestWrite_draws (s : State) (p : Phase) (d : List Byte) :
    (s.requestWrite p d).draws = s.draws := rfl
@[simp] theorem State.requestWrite_freeSource (s : State) (p : Phase) (d : List Byte) :
    (s.requestWrite p d).freeSource = s.freeSource := rfl

/-! ### respond -/

@[simp] theorem State.respond_localId (s : State) (c : Caller) (r : Response) :
    (s.respond c r).localId = s.localId := rfl
@[simp] theorem State.respond_status (s : State) (c : Caller) (r : Response) :
    (s.respond c r).status = s.status := rfl
@[simp] theorem State.respond_handlerValid (s : State) (c : Caller) (r : Response) :
    (s.respond c r).handlerValid = s.handlerValid := rfl
@[simp] theorem State.respond_handlerRef (s : State) (c : Caller) (r : Response) :
    (s.respond c r).handlerRef = s.handlerRef := rfl
@[simp] theorem State.respond_hdr (s : State) (c : Caller) (r : Response) :
    (s.respond c r).hdr = s.hdr := rfl
@[simp] theorem State.respond_bufh (s : State) (c : Caller) (r : Response) :
    (s.respond c r).bufh = s.bufh := rfl
@[simp] theorem State.respond_phase (s : State) (c : Caller) (r : Response) :
    (s.respond c r).phase = s.phase := rfl
@[simp] theorem State.respond_cmdDst (s : State) (c : Caller) (r : Response) :
    (s.respond c r).cmdDst = s.cmdDst := rfl
@[simp] theorem State.respond_cmdArg (s : State) (c : Caller) (r : Response) :
    (s.respond c r).cmdArg = s.cmdArg := rfl
@[simp] theorem State.respond_nestedHdr (s : State) (c : Caller) (r : Response) :
    (s.respond c r).nestedHdr = s.nestedHdr := rfl
@[simp] theorem State.respond_drainLeft (s : State) (c : Caller) (r : Response) :
    (s.respond c r).drainLeft = s.drainLeft := rfl
@[simp] theorem State.respond_pbuf (s : State) (c : Caller) (r : Response) :
    (s.respond c r).pbuf = s.pbuf := rfl
@[simp] theorem State.respond_cbuf (s : State) (c : Caller) (r : Response) :
    (s.respond c r).cbuf = s.cbuf := rfl
@[simp] theorem State.respond_src (s : State) (c : Caller) (r : Response) :
    (s.respond c r).src = s.src := rfl
@[simp] theorem State.respond_tx (s : State) (c : Caller) (r : Response) :
    (s.respond c r).tx = s.tx := rfl
@[simp] theorem State.respond_transport (s : State) (c : Caller) (r : Response) :
    (s.respond c r).transport = s.transport := rfl
@[simp] theorem State.respond_allocator (s : State) (c : Caller) (r : Response) :
    (s.respond c r).allocator = s.allocator := rfl
@[simp] theorem State.respond_handler (s : State) (c : Caller) (r : Response) :
    (s.respond c r).handler = s.handler := rfl
@[simp] theorem State.respond_cmds (s : State) (c : Caller) (r : Response) :
    (s.respond c r).cmds = s.cmds := rfl
@[simp] theorem State.respond_crcUnit (s : State) (c : Caller) (r : Response) :
    (s.respond c r).crcUnit = s.crcUnit := rfl
@[simp] theorem State.respond_trace (s : State) (c : Caller) (r : Response) :
    (s.respond c r).trace = s.trace := rfl
@[simp] theorem State.respond_responses (s : State) (c : Caller) (r : Response) :
    (s.respond c r).responses = s.responses ++ [(c, r)] := rfl
@[simp] theorem State.respond_rejected (s : State) (c : Caller) (r : Response) :
    (s.respond c r).rejected = s.rejected := rfl
@[simp] theorem State.respond_draws (s : State) (c : Caller) (r : Response) :
    (s.respond c r).draws = s.draws := rfl
@[simp] theorem State.respond_freeSource (s : State) (c : Caller) (r : Response) :
    (s.respond c r).freeSource = s.freeSource := rfl

/-! ### finish -/

@[simp] theorem State.finish_localId (s : State) (c : Caller) (r : Response) :
    (s.finish c r).localId = s.localId := rfl
@[simp] theorem State.finish_status (s : State) (c : Caller) (r : Response) :
    (s.finish c r).status = s.status := rfl
@[simp] theorem State.finish_handlerValid (s : State) (c : Caller) (r : Response) :
    (s.finish c r).handlerValid = s.handlerValid := rfl
@[simp] theorem State.finish_handlerRef (s : State) (c : Caller) (r : Response) :
    (s.finish c r).handlerRef = s.handlerRef := rfl
@[simp] theorem State.finish_hdr (s : State) (c : Caller) (r : Response) :
    (s.finish c r).hdr = s.hdr := rfl
@[simp] theorem State.finish_bufh (s : State) (c : Caller) (r : Response) :
    (s.finish c r).bufh = s.bufh := rfl
@[simp] theorem State.finish_phase (s : State) (c : Caller) (r : Response) :
    (s.finish c r).phase = c.restPhase := rfl
@[simp] theorem State.finish_cmdDst (s : State) (c : Caller) (r : Response) :
    (s.finish c r).cmdDst = s.cmdDst := rfl
@[simp] theorem State.finish_cmdArg (s : State) (c : Caller) (r : Response) :
    (s.finish c r).cmdArg = s.cmdArg := rfl
@[simp] theorem State.finish_nestedHdr (s : State) (c : Caller) (r : Response) :
    (s.finish c r).nestedHdr = s.nestedHdr := rfl
@[simp] theorem State.finish_drainLeft (s : State) (c : Caller) (r : Response) :
    (s.finish c r).drainLeft = s.drainLeft := rfl
@[simp] theorem State.finish_pbuf (s : State) (c : Caller) (r : Response) :
    (s.finish c r).pbuf = s.pbuf := rfl
@[simp] theorem State.finish_cbuf (s : State) (c : Caller) (r : Response) :
    (s.finish c r).cbuf = s.cbuf := rfl
@[simp] theorem State.finish_src (s : State) (c : Caller) (r : Response) :
    (s.finish c r).src = s.src := rfl
@[simp] theorem State.finish_tx (s : State) (c : Caller) (r : Response) :
    (s.finish c r).tx = s.tx := rfl
@[simp] theorem State.finish_transport (s : State) (c : Caller) (r : Response) :
    (s.finish c r).transport = s.transport := rfl
@[simp] theorem State.finish_allocator (s : State) (c : Caller) (r : Response) :
    (s.finish c r).allocator = s.allocator := rfl
@[simp] theorem State.finish_handler (s : State) (c : Caller) (r : Response) :
    (s.finish c r).handler = s.handler := rfl
@[simp] theorem State.finish_cmds (s : State) (c : Caller) (r : Response) :
    (s.finish c r).cmds = s.cmds := rfl
@[simp] theorem State.finish_crcUnit (s : State) (c : Caller) (r : Response) :
    (s.finish c r).crcUnit = s.crcUnit := rfl
@[simp] theorem State.finish_trace (s : State) (c : Caller) (r : Response) :
    (s.finish c r).trace = s.trace := rfl
@[simp] theorem State.finish_responses (s : State) (c : Caller) (r : Response) :
    (s.finish c r).responses = s.responses ++ [(c, r)] := rfl
@[simp] theorem State.finish_rejected (s : State) (c : Caller) (r : Response) :
    (s.finish c r).rejected = s.rejected := rfl
@[simp] theorem State.finish_draws (s : State) (c : Caller) (r : Response) :
    (s.finish c r).draws = s.draws := rfl
@[simp] theorem State.finish_freeSource (s : State) (c : Caller) (r : Response) :
    (s.finish c r).freeSource = s.freeSource := rfl

/-! ### fail -/

@[simp] theorem State.fail_localId (s : State) (st : Status) (r : Response) :
    (s.fail st r).localId = s.localId := rfl
@[simp] theorem State.fail_status (s : State) (st : Status) (r : Response) :
    (s.fail st r).status = st := rfl
@[simp] theorem State.fail_handlerValid (s : State) (st : Status) (r : Response) :
    (s.fail st r).handlerValid = s.handlerValid := rfl
@[simp] theorem State.fail_handlerRef (s : State) (st : Status) (r : Response) :
    (s.fail st r).handlerRef = s.handlerRef := rfl
@[simp] theorem State.fail_hdr (s : State) (st : Status) (r : Response) :
    (s.fail st r).hdr = s.hdr := rfl
@[simp] theorem State.fail_bufh (s : State) (st : Status) (r : Response) :
    (s.fail st r).bufh = s.bufh := rfl
@[simp] theorem State.fail_phase (s : State) (st : Status) (r : Response) :
    (s.fail st r).phase = .idle := rfl
@[simp] theorem State.fail_cmdDst (s : State) (st : Status) (r : Response) :
    (s.fail st r).cmdDst = s.cmdDst := rfl
@[simp] theorem State.fail_cmdArg (s : State) (st : Status) (r : Response) :
    (s.fail st r).cmdArg = s.cmdArg := rfl
@[simp] theorem State.fail_nestedHdr (s : State) (st : Status) (r : Response) :
    (s.fail st r).nestedHdr = s.nestedHdr := rfl
@[simp] theorem State.fail_drainLeft (s : State) (st : Status) (r : Response) :
    (s.fail st r).drainLeft = s.drainLeft := rfl
@[simp] theorem State.fail_pbuf (s : State) (st : Status) (r : Response) :
    (s.fail st r).pbuf = s.pbuf := rfl
@[simp] theorem State.fail_cbuf (s : State) (st : Status) (r : Response) :
    (s.fail st r).cbuf = s.cbuf := rfl
@[simp] theorem State.fail_src (s : State) (st : Status) (r : Response) :
    (s.fail st r).src = s.src := rfl
@[simp] theorem State.fail_tx (s : State) (st : Status) (r : Response) :
    (s.fail st r).tx = s.tx := rfl
@[simp] theorem State.fail_transport (s : State) (st : Status) (r : Response) :
    (s.fail st r).transport = s.transport := rfl
@[simp] theorem State.fail_allocator (s : State) (st : Status) (r : Response) :
    (s.fail st r).allocator = s.allocator := rfl
@[simp] theorem State.fail_handler (s : State) (st : Status) (r : Response) :
    (s.fail st r).handler = s.handler := rfl
@[simp] theorem State.fail_cmds (s : State) (st : Status) (r : Response) :
    (s.fail st r).cmds = s.cmds := rfl
@[simp] theorem State.fail_crcUnit (s : State) (st : Status) (r : Response) :
    (s.fail st r).crcUnit = s.crcUnit := rfl
@[simp] theorem State.fail_trace (s : State) (st : Status) (r : Response) :
    (s.fail st r).trace = s.trace := rfl
@[simp] theorem State.fail_responses (s : State) (st : Status) (r : Response) :
    (s.fail st r).responses = s.responses ++ [(.host, r)] := rfl
@[simp] theorem State.fail_rejected (s : State) (st : Status) (r : Response) :
    (s.fail st r).rejected = s.rejected := rfl
@[simp] theorem State.fail_draws (s : State) (st : Status) (r : Response) :
    (s.fail st r).draws = s.draws := rfl
@[simp] theorem State.fail_freeSource (s : State) (st : Status) (r : Response) :
    (s.fail st r).freeSource = s.freeSource := rfl

/-! ### drawn -/

@[simp] theorem State.drawn_localId (s : State) :
    (s.drawn).localId = s.localId := rfl
@[simp] theorem State.drawn_status (s : State) :
    (s.drawn).status = s.status := rfl
@[simp] theorem State.drawn_handlerValid (s : State) :
    (s.drawn).handlerValid = s.handlerValid := rfl
@[simp] theorem State.drawn_handlerRef (s : State) :
    (s.drawn).handlerRef = s.handlerRef := rfl
@[simp] theorem State.drawn_hdr (s : State) :
    (s.drawn).hdr = s.hdr := rfl
@[simp] theorem State.drawn_bufh (s : State) :
    (s.drawn).bufh = s.bufh := rfl
@[simp] theorem State.drawn_phase (s : State) :
    (s.drawn).phase = s.phase := rfl
@[simp] theorem State.drawn_cmdDst (s : State) :
    (s.drawn).cmdDst = s.cmdDst := rfl
@[simp] theorem State.drawn_cmdArg (s : State) :
    (s.drawn).cmdArg = s.cmdArg := rfl
@[simp] theorem State.drawn_nestedHdr (s : State) :
    (s.drawn).nestedHdr = s.nestedHdr := rfl
@[simp] theorem State.drawn_drainLeft (s : State) :
    (s.drawn).drainLeft = s.drainLeft := rfl
@[simp] theorem State.drawn_pbuf (s : State) :
    (s.drawn).pbuf = s.pbuf := rfl
@[simp] theorem State.drawn_cbuf (s : State) :
    (s.drawn).cbuf = s.cbuf := rfl
@[simp] theorem State.drawn_src (s : State) :
    (s.drawn).src = s.src := rfl
@[simp] theorem State.drawn_tx (s : State) :
    (s.drawn).tx = s.tx := rfl
@[simp] theorem State.drawn_transport (s : State) :
    (s.drawn).transport = s.transport := rfl
@[simp] theorem State.drawn_allocator (s : State) :
    (s.drawn).allocator = s.allocator := rfl
@[simp] theorem State.drawn_handler (s : State) :
    (s.drawn).handler = s.handler := rfl
@[simp] theorem State.drawn_cmds (s : State) :
    (s.drawn).cmds = s.cmds := rfl
@[simp] theorem State.drawn_crcUnit (s : State) :
    (s.drawn).crcUnit = s.crcUnit := rfl
@[simp] theorem State.drawn_trace (s : State) :
    (s.drawn).trace = s.trace := rfl
@[simp] theorem State.drawn_responses (s : State) :
    (s.drawn).responses = s.responses := rfl
@[simp] theorem State.drawn_rejected (s : State) :
    (s.drawn).rejected = s.rejected := rfl
@[simp] theorem State.drawn_draws (s : State) :
    (s.drawn).draws = s.draws + 1 := rfl
@[simp] theorem State.drawn_freeSource (s : State) :
    (s.drawn).freeSource = s.freeSource := rfl

/-! ### failRecv -/

@[simp] theorem State.failRecv_localId (s : State) (st : Status) :
    (s.failRecv st).localId = s.localId := rfl
@[simp] theorem State.failRecv_status (s : State) (st : Status) :
    (s.failRecv st).status = st := rfl
@[simp] theorem State.failRecv_handlerValid (s : State) (st : Status) :
    (s.failRecv st).handlerValid = s.handlerValid := rfl
@[simp] theorem State.failRecv_handlerRef (s : State) (st : Status) :
    (s.failRecv st).handlerRef = s.handlerRef := rfl
@[simp] theorem State.failRecv_hdr (s : State) (st : Status) :
    (s.failRecv st).hdr = s.hdr := rfl
@[simp] theorem State.failRecv_bufh (s : State) (st : Status) :
    (s.failRecv st).bufh = s.bufh := rfl
@[simp] theorem State.failRecv_phase (s : State) (st : Status) :
    (s.failRecv st).phase = .idle := rfl
@[simp] theorem State.failRecv_cmdDst (s : State) (st : Status) :
    (s.failRecv st).cmdDst = s.cmdDst := rfl
@[simp] theorem State.failRecv_cmdArg (s : State) (st : Status) :
    (s.failRecv st).cmdArg = s.cmdArg := rfl
@[simp] theorem State.failRecv_nestedHdr (s : State) (st : Status) :
    (s.failRecv st).nestedHdr = s.nestedHdr := rfl
@[simp] theorem State.failRecv_drainLeft (s : State) (st : Status) :
    (s.failRecv st).drainLeft = s.drainLeft := rfl
@[simp] theorem State.failRecv_pbuf (s : State) (st : Status) :
    (s.failRecv st).pbuf = s.pbuf := rfl
@[simp] theorem State.failRecv_cbuf (s : State) (st : Status) :
    (s.failRecv st).cbuf = s.cbuf := rfl
@[simp] theorem State.failRecv_src (s : State) (st : Status) :
    (s.failRecv st).src = s.src := rfl
@[simp] theorem State.failRecv_tx (s : State) (st : Status) :
    (s.failRecv st).tx = s.tx := rfl
@[simp] theorem State.failRecv_transport (s : State) (st : Status) :
    (s.failRecv st).transport = s.transport := rfl
@[simp] theorem State.failRecv_allocator (s : State) (st : Status) :
    (s.failRecv st).allocator = s.allocator := rfl
@[simp] theorem State.failRecv_handler (s : State) (st : Status) :
    (s.failRecv st).handler = s.handler := rfl
@[simp] theorem State.failRecv_cmds (s : State) (st : Status) :
    (s.failRecv st).cmds = s.cmds := rfl
@[simp] theorem State.failRecv_crcUnit (s : State) (st : Status) :
    (s.failRecv st).crcUnit = s.crcUnit := rfl
@[simp] theorem State.failRecv_trace (s : State) (st : Status) :
    (s.failRecv st).trace = s.trace := rfl
@[simp] theorem State.failRecv_responses (s : State) (st : Status) :
    (s.failRecv st).responses = s.responses ++ [(.host, s.unspecifiedRecv)] := rfl
@[simp] theorem State.failRecv_rejected (s : State) (st : Status) :
    (s.failRecv st).rejected = s.rejected := rfl
@[simp] theorem State.failRecv_draws (s : State) (st : Status) :
    (s.failRecv st).draws = s.draws + 1 := rfl
@[simp] theorem State.failRecv_freeSource (s : State) (st : Status) :
    (s.failRecv st).freeSource = s.freeSource := rfl

/-! ### beginDrain -/

@[simp] theorem State.beginDrain_localId (s : State) (p : Phase) (n : U16) :
    (s.beginDrain p n).localId = s.localId := rfl
@[simp] theorem State.beginDrain_status (s : State) (p : Phase) (n : U16) :
    (s.beginDrain p n).status = s.status := rfl
@[simp] theorem State.beginDrain_handlerValid (s : State) (p : Phase) (n : U16) :
    (s.beginDrain p n).handlerValid = s.handlerValid := rfl
@[simp] theorem State.beginDrain_handlerRef (s : State) (p : Phase) (n : U16) :
    (s.beginDrain p n).handlerRef = s.handlerRef := rfl
@[simp] theorem State.beginDrain_hdr (s : State) (p : Phase) (n : U16) :
    (s.beginDrain p n).hdr = s.hdr := rfl
@[simp] theorem State.beginDrain_bufh (s : State) (p : Phase) (n : U16) :
    (s.beginDrain p n).bufh = s.bufh := rfl
@[simp] theorem State.beginDrain_phase (s : State) (p : Phase) (n : U16) :
    (s.beginDrain p n).phase = p := rfl
@[simp] theorem State.beginDrain_cmdDst (s : State) (p : Phase) (n : U16) :
    (s.beginDrain p n).cmdDst = s.cmdDst := rfl
@[simp] theorem State.beginDrain_cmdArg (s : State) (p : Phase) (n : U16) :
    (s.beginDrain p n).cmdArg = s.cmdArg := rfl
@[simp] theorem State.beginDrain_nestedHdr (s : State) (p : Phase) (n : U16) :
    (s.beginDrain p n).nestedHdr = s.nestedHdr := rfl
@[simp] theorem State.beginDrain_drainLeft (s : State) (p : Phase) (n : U16) :
    (s.beginDrain p n).drainLeft = n := rfl
@[simp] theorem State.beginDrain_pbuf (s : State) (p : Phase) (n : U16) :
    (s.beginDrain p n).pbuf = s.pbuf := rfl
@[simp] theorem State.beginDrain_cbuf (s : State) (p : Phase) (n : U16) :
    (s.beginDrain p n).cbuf = s.cbuf := rfl
@[simp] theorem State.beginDrain_src (s : State) (p : Phase) (n : U16) :
    (s.beginDrain p n).src = s.src := rfl
@[simp] theorem State.beginDrain_tx (s : State) (p : Phase) (n : U16) :
    (s.beginDrain p n).tx = s.tx := rfl
@[simp] theorem State.beginDrain_transport (s : State) (p : Phase) (n : U16) :
    (s.beginDrain p n).transport = s.transport := rfl
@[simp] theorem State.beginDrain_allocator (s : State) (p : Phase) (n : U16) :
    (s.beginDrain p n).allocator = s.allocator := rfl
@[simp] theorem State.beginDrain_handler (s : State) (p : Phase) (n : U16) :
    (s.beginDrain p n).handler = s.handler := rfl
@[simp] theorem State.beginDrain_cmds (s : State) (p : Phase) (n : U16) :
    (s.beginDrain p n).cmds = s.cmds := rfl
@[simp] theorem State.beginDrain_crcUnit (s : State) (p : Phase) (n : U16) :
    (s.beginDrain p n).crcUnit = s.crcUnit := rfl
@[simp] theorem State.beginDrain_trace (s : State) (p : Phase) (n : U16) :
    (s.beginDrain p n).trace = s.trace ++ (if n = 0 then [] else [.request .tRead]) := rfl
@[simp] theorem State.beginDrain_responses (s : State) (p : Phase) (n : U16) :
    (s.beginDrain p n).responses = s.responses := rfl
@[simp] theorem State.beginDrain_rejected (s : State) (p : Phase) (n : U16) :
    (s.beginDrain p n).rejected = s.rejected := rfl
@[simp] theorem State.beginDrain_draws (s : State) (p : Phase) (n : U16) :
    (s.beginDrain p n).draws = s.draws := rfl
@[simp] theorem State.beginDrain_freeSource (s : State) (p : Phase) (n : U16) :
    (s.beginDrain p n).freeSource = s.freeSource := rfl

/-! ### reject -/

@[simp] theorem State.reject_localId (s : State) (c : Caller) (why : Rejection) (k : ResponseKind) :
    (s.reject c why k).localId = s.localId := by cases k <;> rfl
@[simp] theorem State.reject_status (s : State) (c : Caller) (why : Rejection) (k : ResponseKind) :
    (s.reject c why k).status = s.status := by cases k <;> rfl
@[simp] theorem State.reject_handlerValid (s : State) (c : Caller) (why : Rejection) (k : ResponseKind) :
    (s.reject c why k).handlerValid = s.handlerValid := by cases k <;> rfl
@[simp] theorem State.reject_handlerRef (s : State) (c : Caller) (why : Rejection) (k : ResponseKind) :
    (s.reject c why k).handlerRef = s.handlerRef := by cases k <;> rfl
@[simp] theorem State.reject_hdr (s : State) (c : Caller) (why : Rejection) (k : ResponseKind) :
    (s.reject c why k).hdr = s.hdr := by cases k <;> rfl
@[simp] theorem State.reject_bufh (s : State) (c : Caller) (why : Rejection) (k : ResponseKind) :
    (s.reject c why k).bufh = s.bufh := by cases k <;> rfl
@[simp] theorem State.reject_phase (s : State) (c : Caller) (why : Rejection) (k : ResponseKind) :
    (s.reject c why k).phase = s.phase := by cases k <;> rfl
@[simp] theorem State.reject_cmdDst (s : State) (c : Caller) (why : Rejection) (k : ResponseKind) :
    (s.reject c why k).cmdDst = s.cmdDst := by cases k <;> rfl
@[simp] theorem State.reject_cmdArg (s : State) (c : Caller) (why : Rejection) (k : ResponseKind) :
    (s.reject c why k).cmdArg = s.cmdArg := by cases k <;> rfl
@[simp] theorem State.reject_nestedHdr (s : State) (c : Caller) (why : Rejection) (k : ResponseKind) :
    (s.reject c why k).nestedHdr = s.nestedHdr := by cases k <;> rfl
@[simp] theorem State.reject_drainLeft (s : State) (c : Caller) (why : Rejection) (k : ResponseKind) :
    (s.reject c why k).drainLeft = s.drainLeft := by cases k <;> rfl
@[simp] theorem State.reject_pbuf (s : State) (c : Caller) (why : Rejection) (k : ResponseKind) :
    (s.reject c why k).pbuf = s.pbuf := by cases k <;> rfl
@[simp] theorem State.reject_cbuf (s : State) (c : Caller) (why : Rejection) (k : ResponseKind) :
    (s.reject c why k).cbuf = s.cbuf := by cases k <;> rfl
@[simp] theorem State.reject_src (s : State) (c : Caller) (why : Rejection) (k : ResponseKind) :
    (s.reject c why k).src = s.src := by cases k <;> rfl
@[simp] theorem State.reject_tx (s : State) (c : Caller) (why : Rejection) (k : ResponseKind) :
    (s.reject c why k).tx = s.tx := by cases k <;> rfl
@[simp] theorem State.reject_transport (s : State) (c : Caller) (why : Rejection) (k : ResponseKind) :
    (s.reject c why k).transport = s.transport := by cases k <;> rfl
@[simp] theorem State.reject_allocator (s : State) (c : Caller) (why : Rejection) (k : ResponseKind) :
    (s.reject c why k).allocator = s.allocator := by cases k <;> rfl
@[simp] theorem State.reject_handler (s : State) (c : Caller) (why : Rejection) (k : ResponseKind) :
    (s.reject c why k).handler = s.handler := by cases k <;> rfl
@[simp] theorem State.reject_cmds (s : State) (c : Caller) (why : Rejection) (k : ResponseKind) :
    (s.reject c why k).cmds = s.cmds := by cases k <;> rfl
@[simp] theorem State.reject_crcUnit (s : State) (c : Caller) (why : Rejection) (k : ResponseKind) :
    (s.reject c why k).crcUnit = s.crcUnit := by cases k <;> rfl
@[simp] theorem State.reject_trace (s : State) (c : Caller) (why : Rejection) (k : ResponseKind) :
    (s.reject c why k).trace = s.trace := by cases k <;> rfl
@[simp] theorem State.reject_rejected (s : State) (c : Caller) (why : Rejection) (k : ResponseKind) :
    (s.reject c why k).rejected = s.rejected ++ [why] := by cases k <;> rfl
@[simp] theorem State.reject_freeSource (s : State) (c : Caller) (why : Rejection) (k : ResponseKind) :
    (s.reject c why k).freeSource = s.freeSource := by cases k <;> rfl

/-! ### releaseBuffer -/

@[simp] theorem State.releaseBuffer_localId (s : State) :
    (s.releaseBuffer).localId = s.localId := by unfold State.releaseBuffer; split <;> simp_all
@[simp] theorem State.releaseBuffer_status (s : State) :
    (s.releaseBuffer).status = s.status := by unfold State.releaseBuffer; split <;> simp_all
@[simp] theorem State.releaseBuffer_handlerValid (s : State) :
    (s.releaseBuffer).handlerValid = s.handlerValid := by unfold State.releaseBuffer; split <;> simp_all
@[simp] theorem State.releaseBuffer_handlerRef (s : State) :
    (s.releaseBuffer).handlerRef = s.handlerRef := by unfold State.releaseBuffer; split <;> simp_all
@[simp] theorem State.releaseBuffer_hdr (s : State) :
    (s.releaseBuffer).hdr = s.hdr := by unfold State.releaseBuffer; split <;> simp_all
@[simp] theorem State.releaseBuffer_bufh (s : State) :
    (s.releaseBuffer).bufh = none := by unfold State.releaseBuffer; split <;> simp_all
@[simp] theorem State.releaseBuffer_phase (s : State) :
    (s.releaseBuffer).phase = s.phase := by unfold State.releaseBuffer; split <;> simp_all
@[simp] theorem State.releaseBuffer_cmdDst (s : State) :
    (s.releaseBuffer).cmdDst = s.cmdDst := by unfold State.releaseBuffer; split <;> simp_all
@[simp] theorem State.releaseBuffer_cmdArg (s : State) :
    (s.releaseBuffer).cmdArg = s.cmdArg := by unfold State.releaseBuffer; split <;> simp_all
@[simp] theorem State.releaseBuffer_nestedHdr (s : State) :
    (s.releaseBuffer).nestedHdr = s.nestedHdr := by unfold State.releaseBuffer; split <;> simp_all
@[simp] theorem State.releaseBuffer_drainLeft (s : State) :
    (s.releaseBuffer).drainLeft = s.drainLeft := by unfold State.releaseBuffer; split <;> simp_all
@[simp] theorem State.releaseBuffer_cbuf (s : State) :
    (s.releaseBuffer).cbuf = s.cbuf := by unfold State.releaseBuffer; split <;> simp_all
@[simp] theorem State.releaseBuffer_src (s : State) :
    (s.releaseBuffer).src = s.src := by unfold State.releaseBuffer; split <;> simp_all
@[simp] theorem State.releaseBuffer_tx (s : State) :
    (s.releaseBuffer).tx = s.tx := by unfold State.releaseBuffer; split <;> simp_all
@[simp] theorem State.releaseBuffer_transport (s : State) :
    (s.releaseBuffer).transport = s.transport := by unfold State.releaseBuffer; split <;> simp_all
@[simp] theorem State.releaseBuffer_allocator (s : State) :
    (s.releaseBuffer).allocator = s.allocator := by unfold State.releaseBuffer; split <;> simp_all
@[simp] theorem State.releaseBuffer_handler (s : State) :
    (s.releaseBuffer).handler = s.handler := by unfold State.releaseBuffer; split <;> simp_all
@[simp] theorem State.releaseBuffer_cmds (s : State) :
    (s.releaseBuffer).cmds = s.cmds := by unfold State.releaseBuffer; split <;> simp_all
@[simp] theorem State.releaseBuffer_crcUnit (s : State) :
    (s.releaseBuffer).crcUnit = s.crcUnit := by unfold State.releaseBuffer; split <;> simp_all
@[simp] theorem State.releaseBuffer_responses (s : State) :
    (s.releaseBuffer).responses = s.responses := by unfold State.releaseBuffer; split <;> simp_all
@[simp] theorem State.releaseBuffer_rejected (s : State) :
    (s.releaseBuffer).rejected = s.rejected := by unfold State.releaseBuffer; split <;> simp_all
@[simp] theorem State.releaseBuffer_draws (s : State) :
    (s.releaseBuffer).draws = s.draws := by unfold State.releaseBuffer; split <;> simp_all
@[simp] theorem State.releaseBuffer_freeSource (s : State) :
    (s.releaseBuffer).freeSource = s.freeSource := by unfold State.releaseBuffer; split <;> simp_all

/-! ### loadSendHdr -/

@[simp] theorem State.loadSendHdr_localId (s : State) (c : Caller) (h : Header) :
    (s.loadSendHdr c h).localId = s.localId := by cases c <;> rfl
@[simp] theorem State.loadSendHdr_status (s : State) (c : Caller) (h : Header) :
    (s.loadSendHdr c h).status = s.status := by cases c <;> rfl
@[simp] theorem State.loadSendHdr_handlerValid (s : State) (c : Caller) (h : Header) :
    (s.loadSendHdr c h).handlerValid = s.handlerValid := by cases c <;> rfl
@[simp] theorem State.loadSendHdr_handlerRef (s : State) (c : Caller) (h : Header) :
    (s.loadSendHdr c h).handlerRef = s.handlerRef := by cases c <;> rfl
@[simp] theorem State.loadSendHdr_bufh (s : State) (c : Caller) (h : Header) :
    (s.loadSendHdr c h).bufh = s.bufh := by cases c <;> rfl
@[simp] theorem State.loadSendHdr_phase (s : State) (c : Caller) (h : Header) :
    (s.loadSendHdr c h).phase = s.phase := by cases c <;> rfl
@[simp] theorem State.loadSendHdr_cmdDst (s : State) (c : Caller) (h : Header) :
    (s.loadSendHdr c h).cmdDst = s.cmdDst := by cases c <;> rfl
@[simp] theorem State.loadSendHdr_cmdArg (s : State) (c : Caller) (h : Header) :
    (s.loadSendHdr c h).cmdArg = s.cmdArg := by cases c <;> rfl
@[simp] theorem State.loadSendHdr_drainLeft (s : State) (c : Caller) (h : Header) :
    (s.loadSendHdr c h).drainLeft = s.drainLeft := by cases c <;> rfl
@[simp] theorem State.loadSendHdr_pbuf (s : State) (c : Caller) (h : Header) :
    (s.loadSendHdr c h).pbuf = s.pbuf := by cases c <;> rfl
@[simp] theorem State.loadSendHdr_cbuf (s : State) (c : Caller) (h : Header) :
    (s.loadSendHdr c h).cbuf = s.cbuf := by cases c <;> rfl
@[simp] theorem State.loadSendHdr_src (s : State) (c : Caller) (h : Header) :
    (s.loadSendHdr c h).src = s.src := by cases c <;> rfl
@[simp] theorem State.loadSendHdr_tx (s : State) (c : Caller) (h : Header) :
    (s.loadSendHdr c h).tx = s.tx := by cases c <;> rfl
@[simp] theorem State.loadSendHdr_transport (s : State) (c : Caller) (h : Header) :
    (s.loadSendHdr c h).transport = s.transport := by cases c <;> rfl
@[simp] theorem State.loadSendHdr_allocator (s : State) (c : Caller) (h : Header) :
    (s.loadSendHdr c h).allocator = s.allocator := by cases c <;> rfl
@[simp] theorem State.loadSendHdr_handler (s : State) (c : Caller) (h : Header) :
    (s.loadSendHdr c h).handler = s.handler := by cases c <;> rfl
@[simp] theorem State.loadSendHdr_cmds (s : State) (c : Caller) (h : Header) :
    (s.loadSendHdr c h).cmds = s.cmds := by cases c <;> rfl
@[simp] theorem State.loadSendHdr_crcUnit (s : State) (c : Caller) (h : Header) :
    (s.loadSendHdr c h).crcUnit = s.crcUnit := by cases c <;> rfl
@[simp] theorem State.loadSendHdr_trace (s : State) (c : Caller) (h : Header) :
    (s.loadSendHdr c h).trace = s.trace := by cases c <;> rfl
@[simp] theorem State.loadSendHdr_responses (s : State) (c : Caller) (h : Header) :
    (s.loadSendHdr c h).responses = s.responses := by cases c <;> rfl
@[simp] theorem State.loadSendHdr_rejected (s : State) (c : Caller) (h : Header) :
    (s.loadSendHdr c h).rejected = s.rejected := by cases c <;> rfl
@[simp] theorem State.loadSendHdr_draws (s : State) (c : Caller) (h : Header) :
    (s.loadSendHdr c h).draws = s.draws := by cases c <;> rfl
@[simp] theorem State.loadSendHdr_freeSource (s : State) (c : Caller) (h : Header) :
    (s.loadSendHdr c h).freeSource = s.freeSource := by cases c <;> rfl

/-! ### handOver -/

@[simp] theorem State.handOver_localId (s : State) (i : Instr) (m : Memory) :
    (s.handOver i m).localId = s.localId := by cases i <;> rfl
@[simp] theorem State.handOver_status (s : State) (i : Instr) (m : Memory) :
    (s.handOver i m).status = s.status := by cases i <;> rfl
@[simp] theorem State.handOver_handlerValid (s : State) (i : Instr) (m : Memory) :
    (s.handOver i m).handlerValid = s.handlerValid := by cases i <;> rfl
@[simp] theorem State.handOver_handlerRef (s : State) (i : Instr) (m : Memory) :
    (s.handOver i m).handlerRef = s.handlerRef := by cases i <;> rfl
@[simp] theorem State.handOver_hdr (s : State) (i : Instr) (m : Memory) :
    (s.handOver i m).hdr = s.hdr := by cases i <;> rfl
@[simp] theorem State.handOver_bufh (s : State) (i : Instr) (m : Memory) :
    (s.handOver i m).bufh = s.bufh := by cases i <;> rfl
@[simp] theorem State.handOver_phase (s : State) (i : Instr) (m : Memory) :
    (s.handOver i m).phase = s.phase := by cases i <;> rfl
@[simp] theorem State.handOver_cmdDst (s : State) (i : Instr) (m : Memory) :
    (s.handOver i m).cmdDst = s.cmdDst := by cases i <;> rfl
@[simp] theorem State.handOver_cmdArg (s : State) (i : Instr) (m : Memory) :
    (s.handOver i m).cmdArg = s.cmdArg := by cases i <;> rfl
@[simp] theorem State.handOver_nestedHdr (s : State) (i : Instr) (m : Memory) :
    (s.handOver i m).nestedHdr = s.nestedHdr := by cases i <;> rfl
@[simp] theorem State.handOver_drainLeft (s : State) (i : Instr) (m : Memory) :
    (s.handOver i m).drainLeft = s.drainLeft := by cases i <;> rfl
@[simp] theorem State.handOver_pbuf (s : State) (i : Instr) (m : Memory) :
    (s.handOver i m).pbuf = s.pbuf := by cases i <;> rfl
@[simp] theorem State.handOver_tx (s : State) (i : Instr) (m : Memory) :
    (s.handOver i m).tx = s.tx := by cases i <;> rfl
@[simp] theorem State.handOver_transport (s : State) (i : Instr) (m : Memory) :
    (s.handOver i m).transport = s.transport := by cases i <;> rfl
@[simp] theorem State.handOver_allocator (s : State) (i : Instr) (m : Memory) :
    (s.handOver i m).allocator = s.allocator := by cases i <;> rfl
@[simp] theorem State.handOver_handler (s : State) (i : Instr) (m : Memory) :
    (s.handOver i m).handler = s.handler := by cases i <;> rfl
@[simp] theorem State.handOver_cmds (s : State) (i : Instr) (m : Memory) :
    (s.handOver i m).cmds = s.cmds := by cases i <;> rfl
@[simp] theorem State.handOver_crcUnit (s : State) (i : Instr) (m : Memory) :
    (s.handOver i m).crcUnit = s.crcUnit := by cases i <;> rfl
@[simp] theorem State.handOver_trace (s : State) (i : Instr) (m : Memory) :
    (s.handOver i m).trace = s.trace := by cases i <;> rfl
@[simp] theorem State.handOver_responses (s : State) (i : Instr) (m : Memory) :
    (s.handOver i m).responses = s.responses := by cases i <;> rfl
@[simp] theorem State.handOver_rejected (s : State) (i : Instr) (m : Memory) :
    (s.handOver i m).rejected = s.rejected := by cases i <;> rfl
@[simp] theorem State.handOver_draws (s : State) (i : Instr) (m : Memory) :
    (s.handOver i m).draws = s.draws := by cases i <;> rfl
@[simp] theorem State.handOver_freeSource (s : State) (i : Instr) (m : Memory) :
    (s.handOver i m).freeSource = s.freeSource := by cases i <;> rfl

/-! ### The split updates -/

@[simp] theorem State.loadSendHdr_sendHdr (s : State) (c : Caller) (h : Header) :
    (s.loadSendHdr c h).sendHdr c = h := by cases c <;> rfl
@[simp] theorem State.loadSendHdr_handler_hdr (s : State) (h : Header) :
    (s.loadSendHdr .handler h).hdr = s.hdr := rfl
@[simp] theorem State.loadSendHdr_host_nestedHdr (s : State) (h : Header) :
    (s.loadSendHdr .host h).nestedHdr = s.nestedHdr := rfl
@[simp] theorem State.handOver_recv_cbuf (s : State) (n : U16) (m : Memory) :
    (s.handOver (.recv n) m).cbuf = m := rfl
@[simp] theorem State.handOver_send_src (s : State) (d : Byte) (n : U16) (m : Memory) :
    (s.handOver (.send d n) m).src = m := rfl
theorem State.handOver_cbuf (s : State) (i : Instr) (m : Memory) :
    (s.handOver i m).cbuf = s.cbuf ∨ (s.handOver i m).cbuf = m := by cases i <;> simp [State.handOver]
theorem State.handOver_src (s : State) (i : Instr) (m : Memory) :
    (s.handOver i m).src = s.src ∨ (s.handOver i m).src = m := by cases i <;> simp [State.handOver]
theorem State.releaseBuffer_held (s : State) (h : Handle) (hs : s.bufh = some h) :
    s.releaseBuffer = { s with bufh := none, pbuf := [], trace := s.trace ++ [.request (.aRelease h)] } := by
  simp [State.releaseBuffer, hs]
theorem State.releaseBuffer_none (s : State) (hs : s.bufh = none) : s.releaseBuffer = s := by
  simp [State.releaseBuffer, hs]
@[simp] theorem Caller.restPhase_host : Caller.host.restPhase = .idle := rfl
@[simp] theorem Caller.restPhase_handler : Caller.handler.restPhase = .dispatch := rfl

end Sys2Proof.Machine
end

