-- ==== Sys2Proof/Laws/Transport.lean ====
section
/-! SUPPORT. What the transports answer. -/

namespace Sys2Proof.Machine

/-- A drain gets at most as many answers as it asks for. -/
theorem Transport.drain_length (n : Nat) (t : Transport) : (t.drain n).1.length ≤ n := by
  induction n generalizing t with
  | zero => simp [Transport.drain]
  | succ n ih =>
    unfold Transport.drain
    split
    · simp
    · simpa using ih _

/-- QueueTransport answers every request of a drain, whatever is queued (20_memory R47, R63), and hands over the
first bytes of its queue. -/
theorem Transport.drain_queue (n : Nat) (q : List Byte) :
    ((Transport.queue q).drain n).1.length = n ∧ ((Transport.queue q).drain n).2 = .queue (q.drop n) := by
  induction n generalizing q with
  | zero => simp [Transport.drain]
  | succ n ih =>
    cases q with
    | nil => simpa [Transport.drain, Transport.read] using ih []
    | cons b q => simpa [Transport.drain, Transport.read] using ih q

/-- The next answer of a drain is the transport's answer to `T.read()`. -/
theorem Transport.drain_none (n : Nat) (t : Transport) (h : t.read = none) : t.drain n = ([], t) := by
  cases n <;> simp [Transport.drain, h]

theorem Transport.drain_some (n : Nat) (t t' : Transport) (v : Option Byte) (h : t.read = some (v, t')) :
    t.drain (n + 1) = (v :: (t'.drain n).1, (t'.drain n).2) := by
  simp [Transport.drain, h]

/-- A reference transport's answer to `T.readBytes(n)` keeps the contract of 20_memory R46. -/
theorem Transport.queue_contract (n : U16) (q : List Byte) (k : U16) (d : List Byte) (t : Transport)
    (h : (Transport.queue q).readBytes n = some (k, d, t)) : k ≤ n ∧ d.length = k.toNat := by
  simp only [Transport.readBytes, Option.some.injEq, Prod.mk.injEq] at h
  obtain ⟨rfl, rfl, -⟩ := h
  have hn := n.isLt
  have e : min n.toNat q.length % 65536 = min n.toNat q.length := Nat.mod_eq_of_lt (by omega)
  refine ⟨?_, ?_⟩
  · rw [BitVec.le_def, BitVec.toNat_ofNat]
    omega
  · rw [List.length_take, BitVec.toNat_ofNat]
    omega

theorem Transport.blocking_contract (n : U16) (q : List Byte) (k : U16) (d : List Byte) (t : Transport)
    (h : (Transport.blocking q).readBytes n = some (k, d, t)) : k = n ∧ d.length = k.toNat := by
  simp only [Transport.readBytes, Option.ite_none_right_eq_some, Option.some.injEq, Prod.mk.injEq] at h
  obtain ⟨hq, rfl, rfl, -⟩ := h
  exact ⟨rfl, by rw [List.length_take]; omega⟩

end Sys2Proof.Machine
end

