-- ==== Sys2Proof/Laws/Ops.lean ====
section
/-! SUPPORT. What each shared operation can do: a property of every next state follows from the cases named here. -/

namespace Sys2Proof.Machine

@[simp] theorem allNext_next (P : State → Prop) (t : State) : AllNext P (.next t) ↔ P t := Iff.rfl
@[simp] theorem allNext_fault (P : State → Prop) (f : Fault) : AllNext P (.fault f) ↔ True := Iff.rfl
@[simp] theorem allNext_refused (P : State → Prop) (r : Refusal) : AllNext P (.refused r) ↔ True := Iff.rfl

/-- A property of every next state holds of a next state that is given. -/
theorem AllNext.of_eq {P : State → Prop} {r : Result} {t : State} (h : AllNext P r) (e : r = .next t) : P t := by
  subst e; exact h

/-- A property shown of whatever next state there is holds of every next state. -/
theorem AllNext.intro {P : State → Prop} {r : Result} (h : ∀ t, r = .next t → P t) : AllNext P r := by
  cases r <;> simp_all

theorem AllNext.mono {P Q : State → Prop} {r : Result} (h : AllNext P r) (pq : ∀ t, P t → Q t) : AllNext Q r := by
  cases r <;> simp_all

/-! ### The command gate -/

theorem caller_eq_host {p : Phase} (h : p.caller = some .host) : p = .idle := by cases p <;> simp_all [Phase.caller]

theorem caller_eq_handler {p : Phase} (h : p.caller = some .handler) : p = .dispatch := by
  cases p <;> simp_all [Phase.caller]

/-- A caller whose command is taken finds the engine where its commands end. -/
theorem caller_restPhase {p : Phase} {c : Caller} (h : p.caller = some c) : c.restPhase = p := by
  cases p <;> simp_all [Phase.caller] <;> subst h <;> rfl

theorem allNext_accept {P : State → Prop} {s : State} {k : Caller → Result}
    (h : ∀ c, s.phase = c.restPhase → AllNext P (k c)) : AllNext P (s.accept k) := by
  unfold State.accept
  split
  · trivial
  · exact h _ (caller_restPhase ‹_›).symm

theorem allNext_acceptHost {P : State → Prop} {s : State} {why : Rejection} {kind : ResponseKind} {k : Result}
    (nested : s.phase = .dispatch → P (s.reject .handler why kind))
    (h : s.phase = .idle → AllNext P k) : AllNext P (s.acceptHost why kind k) := by
  unfold State.acceptHost
  split
  · trivial
  · exact nested (caller_eq_handler ‹_›)
  · exact h (caller_eq_host ‹_›)

theorem allNext_gate {P : State → Prop} {s : State} {c : Caller} {kind : ResponseKind} {k : Result}
    (shut : s.status = .notInitialized → P (s.reject c .notInitialized kind))
    (h : s.status ≠ .notInitialized → AllNext P k) : AllNext P (s.gate c kind k) := by
  unfold State.gate
  split
  · exact shut ‹_›
  · exact h ‹_›

/-! ### Units that ask the transport -/

theorem allNext_awaitReadBytes {P : State → Prop} {s : State} {n : U16} {k : U16 → List Byte → State → Result}
    (wait : P s)
    (ans : ∀ got d t, s.transport.readBytes n = some (got, d, t) → got ≤ n → d.length = got.toNat →
      AllNext P (k got d { s with transport := t, trace := s.trace ++ [.answer (.tReadBytes got d)] })) :
    AllNext P (s.awaitReadBytes n k) := by
  unfold State.awaitReadBytes
  split
  · exact wait
  · split
    · rename_i heq hc; exact ans _ _ _ heq hc.1 hc.2
    · trivial

theorem parseHeader_isSome (d : List Byte) : (parseHeader d).isSome = decide (d.length = 6) := by
  rcases d with _ | ⟨a, _ | ⟨b, _ | ⟨c, _ | ⟨e, _ | ⟨f, _ | ⟨g, _ | ⟨x, r⟩⟩⟩⟩⟩⟩⟩ <;>
    simp [parseHeader]

theorem allNext_awaitHeader {P : State → Prop} {s : State} {bad : State → State} {k : State → Result}
    (wait : P s)
    (short : ∀ got d t, s.transport.readBytes Config.headerSize = some (got, d, t) → got < Config.headerSize →
      d.length = got.toNat → P (bad { s with transport := t, trace := s.trace ++ [.answer (.tReadBytes got d)] }))
    (full : ∀ d t h, s.transport.readBytes Config.headerSize = some (Config.headerSize, d, t) → parseHeader d = some h →
      AllNext P (k { s with transport := t, trace := s.trace ++ [.answer (.tReadBytes Config.headerSize d)], hdr := h })) :
    AllNext P (s.awaitHeader bad k) := by
  unfold State.awaitHeader
  refine allNext_awaitReadBytes wait fun got d t ht hle hlen => ?_
  have hs := parseHeader_isSome d
  have h6 : Config.headerSize.toNat = 6 := rfl
  rw [BitVec.le_def] at hle
  split
  · rename_i hn
    refine short _ _ _ ht ?_ hlen
    simp only [hn, Option.isSome_none, Eq.comm (a := false), decide_eq_false_iff_not] at hs
    rw [BitVec.lt_def]; omega
  · rename_i h hn
    simp only [hn, Option.isSome_some, Eq.comm (a := true), decide_eq_true_eq] at hs
    have e : got = Config.headerSize := BitVec.eq_of_toNat_eq (by omega)
    subst e
    exact full _ _ _ ht hn

/-- A drain leaves every register but its own counter alone, records only reads, and ends when none is left. -/
theorem allNext_awaitDrain {P : State → Prop} {s : State} {fin : State → State}
    (wait : ∀ t vs, s.transport.drain s.drainLeft.toNat = (vs, t) → vs.length < s.drainLeft.toNat →
      P { s with transport := t, drainLeft := BitVec.ofNat 16 (s.drainLeft.toNat - vs.length),
                 trace := s.trace ++ drainEvents (s.drainLeft.toNat - vs.length) vs })
    (stop : ∀ t vs, s.transport.drain s.drainLeft.toNat = (vs, t) → vs.length = s.drainLeft.toNat →
      P (fin { s with transport := t, drainLeft := 0, trace := s.trace ++ drainEvents 0 vs })) :
    AllNext P (s.awaitDrain fin) := by
  have hl := Transport.drain_length s.drainLeft.toNat s.transport
  unfold State.awaitDrain
  rcases hd : s.transport.drain s.drainLeft.toNat with ⟨vs, t⟩
  rw [hd] at hl
  simp only
  split
  · rename_i h0
    have h := stop t vs hd (by simp only at hl; omega)
    simpa [h0] using h
  · exact wait t vs hd (by omega)

/-! ### The units, answer by answer -/

/-- An answer within the contract goes to the rest of the operation. -/
theorem State.awaitReadBytes_answered {s : State} {n k : U16} {d : List Byte} {t : Transport}
    {cont : U16 → List Byte → State → Result} (h : s.transport.readBytes n = some (k, d, t)) (hk : k ≤ n)
    (hd : d.length = k.toNat) :
    s.awaitReadBytes n cont = cont k d { s with transport := t, trace := s.trace ++ [.answer (.tReadBytes k d)] } := by
  unfold State.awaitReadBytes
  rw [h]
  simp [hk, hd]

theorem parseHeader_none {d : List Byte} (h : d.length ≠ 6) : parseHeader d = none := by
  simpa [h] using parseHeader_isSome d

theorem length_of_parseHeader {d : List Byte} {h : Header} (e : parseHeader d = some h) : d.length = 6 := by
  simpa [e] using parseHeader_isSome d

/-- A whole header is loaded. -/
theorem State.awaitHeader_arrives {s : State} {d : List Byte} {h : Header} {t : Transport} {bad : State → State}
    {k : State → Result} (hh : headerArrives s.transport d h t) :
    s.awaitHeader bad k =
      k { s with transport := t, trace := s.trace ++ [.answer (.tReadBytes 6 d)], hdr := h } := by
  obtain ⟨h1, h2⟩ := hh
  unfold State.awaitHeader
  rw [State.awaitReadBytes_answered h1 (BitVec.le_refl _)
    (by simp [length_of_parseHeader h2, Config.headerSize])]
  simp [h2, Config.headerSize]

/-- A short header read takes the error exit. -/
theorem State.awaitHeader_short {s : State} {n : U16} {d : List Byte} {t : Transport} {bad : State → State}
    {k : State → Result} (hh : shortRead s.transport 6 n d t) :
    s.awaitHeader bad k =
      .next (bad { s with transport := t, trace := s.trace ++ [.answer (.tReadBytes n d)] }) := by
  obtain ⟨h1, h2, h3⟩ := hh
  rw [BitVec.lt_def] at h2
  unfold State.awaitHeader
  rw [show Config.headerSize = 6 from rfl,
    State.awaitReadBytes_answered h1 (by rw [BitVec.le_def]; omega) h3]
  simp [parseHeader_none (d := d) (by simp at h2; omega)]

/-- The first request of a drain and the events of its answers, when all are answered. -/
theorem drainEvents_done (v : Option Byte) (vs : List (Option Byte)) :
    .request .tRead :: drainEvents 0 (v :: vs) = drainTrace (v :: vs) := by
  induction vs generalizing v with
  | nil => rfl
  | cons w ws ih => simpa [drainEvents, drainTrace] using ih w

/-- The first request of a drain and the events of its answers, when some are still to come. -/
theorem drainEvents_open (left : Nat) (hl : left ≠ 0) (vs : List (Option Byte)) :
    .request .tRead :: drainEvents left vs = drainTrace vs ++ [.request .tRead] := by
  induction vs with
  | nil => rfl
  | cons v vs ih =>
    cases vs with
    | nil => simp [drainEvents, drainTrace, hl]
    | cons w ws => simpa [drainEvents, drainTrace] using ih

/-! ### Taking a step -/

theorem allNext_runCommand {P : State → Prop} {c : Command} {s : State}
    (ins : ∀ i, decode c.word = .instr i → AllNext P (exec i (s.handOver i c.space)))
    (res : ∀ why who, decode c.word = .reserved why → s.phase = who.restPhase →
      P (s.reject who (.reservedWord why) (responseKind c.word))) : AllNext P (runCommand c s) := by
  unfold runCommand
  split
  · exact ins _ ‹_›
  · exact allNext_accept fun who hw => res _ who ‹_› hw

/-- What a step can do: take the host's command, take the handler's, or go on with the running operation. -/
theorem allNext_step {P : State → Prop} {s : State}
    (host : ∀ c rest, s.phase = .idle → s.cmds = c :: rest → AllNext P (runCommand c { s with cmds := rest }))
    (handler : ∀ c rest, s.phase = .dispatch → s.handler = .command c :: rest →
      AllNext P (runCommand c { s with handler := rest }))
    (go : s.phase ≠ .idle → AllNext P (resume s)) : AllNext P (step s) := by
  unfold step nextMove
  split
  · trivial
  · split
    · trivial
    · exact host _ _ ‹_› ‹_›
    · exact handler _ _ ‹_› ‹_›
    · rename_i h1 h2 _
      refine go fun hp => ?_
      cases hc : s.cmds with
      | nil => exact h1 hp hc
      | cons c rest => exact h2 c rest hp hc

end Sys2Proof.Machine
end

