-- ==== Sys2Proof/Laws/Operations.lean ====
section
/-! SUPPORT. What each step of an operation can do, in the shape of `Laws/Ops.lean`: a property of every next state
follows from the cases named here, so that no later proof unfolds a step. -/

namespace Sys2Proof.Machine

/-! ### BEGIN -/

theorem allNext_beginAwait {P : State → Prop} {s : State} (wait : P s)
    (taken : ∀ t, s.transport.takeBegin = some t →
      P (State.finish { s with transport := t, status := .ready } .host .done)) : AllNext P (beginAwait s) := by
  unfold beginAwait
  split
  · exact wait
  · exact taken _ ‹_›

theorem allNext_execBegin {P : State → Prop} {s : State}
    (nested : s.phase = .dispatch → P (s.reject .handler .nestedBegin .bare))
    (go : s.phase = .idle → AllNext P (beginAwait (s.request .begin1 (.tBegin Config.lineRate)))) :
    AllNext P (execBegin s) :=
  allNext_acceptHost nested go

/-! ### POLL -/

theorem allNext_pollStep6 {P : State → Prop} {s : State} (h : P (s.releaseBuffer.finish .host .done)) :
    AllNext P (pollStep6 s) := h

theorem allNext_awaitHandler {P : State → Prop} {s : State} (wait : P s)
    (ret : ∀ rest, s.handler = .ret :: rest →
      AllNext P (pollStep6 { s with handler := rest, trace := s.trace ++ [.answer .hReturn] })) :
    AllNext P (awaitHandler s) := by
  unfold awaitHandler
  split
  · exact ret _ ‹_›
  · exact wait
  · exact wait

theorem allNext_pollStep5 {P : State → Prop} {s : State}
    (call : ∀ p, addrAccept s.localId s.hdr.dst = true → s.handlerValid = true →
      s.pbuf.readBytes 0 s.hdr.size.toNat = some p →
      AllNext P (awaitHandler (s.request .dispatch (.hHandle s.handlerRef s.hdr p))))
    (skip : ¬(addrAccept s.localId s.hdr.dst = true ∧ s.handlerValid = true) → AllNext P (pollStep6 s)) :
    AllNext P (pollStep5 s) := by
  unfold pollStep5
  split
  · rename_i h
    split
    · trivial
    · exact call _ h.1 h.2 ‹_›
  · exact skip ‹_›

theorem allNext_pollStep4 {P : State → Prop} {s : State} (wait : P s)
    (short : ∀ k d t, s.transport.readBytes s.hdr.size = some (k, d, t) → k < s.hdr.size → d.length = k.toNat →
      P (State.fail (State.releaseBuffer { s with transport := t, trace := s.trace ++ [.answer (.tReadBytes k d)],
                                                  pbuf := s.pbuf.writeBytes 0 d }) .badPacket .done))
    (full : ∀ d t, s.transport.readBytes s.hdr.size = some (s.hdr.size, d, t) → d.length = s.hdr.size.toNat →
      AllNext P (pollStep5 { s with transport := t, trace := s.trace ++ [.answer (.tReadBytes s.hdr.size d)],
                                    pbuf := s.pbuf.writeBytes 0 d })) : AllNext P (pollStep4 s) := by
  unfold pollStep4
  refine allNext_awaitReadBytes wait fun k d t ht hle hlen => ?_
  simp only
  split
  · exact short _ _ _ ht ‹_› hlen
  · have e : k = s.hdr.size := by
      rename_i hk; rw [BitVec.le_def] at hle; rw [BitVec.lt_def] at hk; exact BitVec.eq_of_toNat_eq (by omega)
    subst e
    exact full _ _ ht hlen

theorem allNext_pollStep3 {P : State → Prop} {s : State} (wait : P s)
    (no : ∀ a, s.allocator.acquire = some (.fail, a) →
      P (State.fail { s with allocator := a, trace := s.trace ++ [.answer (.aAcquire .fail)] }
        .allocationFailure .done))
    (yes : ∀ h a, s.allocator.acquire = some (.ok h, a) →
      AllNext P (pollStep4 (State.request
        { s with allocator := a, trace := s.trace ++ [.answer (.aAcquire (.ok h))], bufh := some h, pbuf := [] }
        .poll4 (.tReadBytes s.hdr.size)))) : AllNext P (pollStep3 s) := by
  unfold pollStep3
  split
  · exact wait
  · simp only
    split
    · exact no _ ‹_›
    · exact yes _ _ ‹_›

theorem allNext_pollStep2 {P : State → Prop} {s : State}
    (large : 500 < s.hdr.size.toNat →
      AllNext P (pollDrain (State.beginDrain { s with status := .packetOverSize } .poll2 s.hdr.size)))
    (fits : s.hdr.size.toNat ≤ 500 → AllNext P (pollStep3 (s.request .poll3 (.aAcquire s.hdr.size)))) :
    AllNext P (pollStep2 s) := by
  unfold pollStep2
  have e : overSizePoll s.hdr.size = true ↔ 500 < s.hdr.size.toNat := by
    simp [overSizePoll, Config.maxPacketSize, BitVec.lt_def]
  split
  · exact large (e.1 ‹_›)
  · exact fits (by rw [e] at *; omega)

theorem allNext_pollStep1 {P : State → Prop} {s : State} (wait : P s)
    (short : ∀ k d t, s.transport.readBytes 6 = some (k, d, t) → k < 6 → d.length = k.toNat →
      P (State.fail { s with transport := t, trace := s.trace ++ [.answer (.tReadBytes k d)] } .badHeader .done))
    (full : ∀ d t h, s.transport.readBytes 6 = some (6, d, t) → parseHeader d = some h →
      AllNext P (pollStep2 { s with transport := t, trace := s.trace ++ [.answer (.tReadBytes 6 d)], hdr := h })) :
    AllNext P (pollStep1 s) :=
  allNext_awaitHeader wait short full

theorem allNext_pollStep0 {P : State → Prop} {s : State} (wait : P s)
    (no : ∀ t, s.transport.available = some (false, t) →
      P (State.finish { s with transport := t, trace := s.trace ++ [.answer (.tAvailable false)] } .host .done))
    (yes : ∀ t, s.transport.available = some (true, t) →
      AllNext P (pollStep1 (State.request
        { s with transport := t, trace := s.trace ++ [.answer (.tAvailable true)] } .poll1 (.tReadBytes 6)))) :
    AllNext P (pollStep0 s) := by
  unfold pollStep0
  split
  · exact wait
  · simp only
    split
    · rename_i h ha; subst ha; exact yes _ h
    · rename_i a _ h ha
      have e : a = false := by simpa using ha
      subst e; exact no _ h

theorem allNext_execPoll {P : State → Prop} {s : State}
    (nested : s.phase = .dispatch → P (s.reject .handler .nestedPoll .bare))
    (shut : s.phase = .idle → s.status = .notInitialized → P (s.reject .host .notInitialized .bare))
    (go : s.phase = .idle → s.status ≠ .notInitialized → AllNext P (pollStep0 (s.request .poll0 .tAvailable))) :
    AllNext P (execPoll s) :=
  allNext_acceptHost nested fun hp => allNext_gate (shut hp) (go hp)

/-! ### RECV -/

theorem allNext_recvStep4 {P : State → Prop} {s : State}
    (good : ∀ p, s.cbuf.readBytes 0 s.hdr.size.toNat = some p → s.crcUnit.crc16 p = s.hdr.crc →
      P (s.finish .host (.recv s.hdr.size s.hdr)))
    (bad : ∀ p, s.cbuf.readBytes 0 s.hdr.size.toNat = some p → s.crcUnit.crc16 p ≠ s.hdr.crc →
      P (s.fail .crcError (.recv 0 s.hdr))) : AllNext P (recvStep4 s) := by
  unfold recvStep4
  split
  · trivial
  · split
    · exact good _ ‹_› (by simpa [crcOK] using ‹crcOK _ _ _ = true›)
    · exact bad _ ‹_› (by simpa [crcOK] using ‹¬crcOK _ _ _ = true›)

theorem allNext_recvStep3 {P : State → Prop} {s : State} (wait : P s)
    (short : ∀ k d t, s.transport.readBytes s.hdr.size = some (k, d, t) → k < s.hdr.size → d.length = k.toNat →
      P (State.fail { s with transport := t, trace := s.trace ++ [.answer (.tReadBytes k d)],
                             cbuf := s.cbuf.writeBytes 0 d } .badPacket (.recv 0 s.hdr)))
    (full : ∀ d t, s.transport.readBytes s.hdr.size = some (s.hdr.size, d, t) → d.length = s.hdr.size.toNat →
      AllNext P (recvStep4 { s with transport := t, trace := s.trace ++ [.answer (.tReadBytes s.hdr.size d)],
                                    cbuf := s.cbuf.writeBytes 0 d })) : AllNext P (recvStep3 s) := by
  unfold recvStep3
  refine allNext_awaitReadBytes wait fun k d t ht hle hlen => ?_
  simp only
  split
  · exact short _ _ _ ht ‹_› hlen
  · have e : k = s.hdr.size := by
      rename_i hk; rw [BitVec.le_def] at hle; rw [BitVec.lt_def] at hk; exact BitVec.eq_of_toNat_eq (by omega)
    subst e
    exact full _ _ ht hlen

theorem allNext_recvStep2 {P : State → Prop} {s : State}
    (large : 500 < s.hdr.size.toNat ∨ s.cmdArg.toNat < s.hdr.size.toNat →
      AllNext P (recvDrain (State.beginDrain { s with status := .packetOverSize } .recv2 s.hdr.size)))
    (fits : s.hdr.size.toNat ≤ 500 → s.hdr.size.toNat ≤ s.cmdArg.toNat →
      AllNext P (recvStep3 (s.request .recv3 (.tReadBytes s.hdr.size)))) : AllNext P (recvStep2 s) := by
  unfold recvStep2
  have e : overSizeRecv s.hdr.size s.cmdArg = true ↔
      500 < s.hdr.size.toNat ∨ s.cmdArg.toNat < s.hdr.size.toNat := by
    simp [overSizeRecv, Config.maxPacketSize, BitVec.lt_def]
  split
  · exact large (e.1 ‹_›)
  · rename_i hn
    rw [e] at hn
    exact fits (by omega) (by omega)

theorem allNext_recvStep1 {P : State → Prop} {s : State} (wait : P s)
    (short : ∀ k d t, s.transport.readBytes 6 = some (k, d, t) → k < 6 → d.length = k.toNat →
      P (State.failRecv { s with transport := t, trace := s.trace ++ [.answer (.tReadBytes k d)] } .badHeader))
    (full : ∀ d t h, s.transport.readBytes 6 = some (6, d, t) → parseHeader d = some h →
      AllNext P (recvStep2 { s with transport := t, trace := s.trace ++ [.answer (.tReadBytes 6 d)], hdr := h })) :
    AllNext P (recvStep1 s) :=
  allNext_awaitHeader wait short full

theorem allNext_execRecv {P : State → Prop} {s : State} {n : U16}
    (nested : s.phase = .dispatch → P (s.reject .handler .nestedRecv .received))
    (shut : s.phase = .idle → s.status = .notInitialized → P (s.reject .host .notInitialized .received))
    (go : s.phase = .idle → s.status ≠ .notInitialized →
      AllNext P (recvStep1 (State.request { s with cmdArg := n } .recv1 (.tReadBytes 6)))) :
    AllNext P (execRecv n s) :=
  allNext_acceptHost nested fun hp => allNext_gate (shut hp) (go hp)

/-! ### SEND -/

theorem allNext_sendStep5 {P : State → Prop} {s : State} {c : Caller} (wait : P s)
    (taken : ∀ t, s.transport.takeEndTransmission = some t → P (State.finish { s with transport := t } c .done)) :
    AllNext P (sendStep5 c s) := by
  unfold sendStep5
  split
  · exact wait
  · exact taken _ ‹_›

theorem allNext_sendStep4 {P : State → Prop} {s : State} {c : Caller} (wait : P s)
    (taken : ∀ t, s.transport.takeWrite = some t →
      AllNext P (sendStep5 c (State.request { s with transport := t } (.send5 c) .tEndTransmission))) :
    AllNext P (sendStep4 c s) := by
  unfold sendStep4
  split
  · exact wait
  · exact taken _ ‹_›

theorem allNext_sendStep3 {P : State → Prop} {s : State} {c : Caller} (wait : P s)
    (taken : ∀ t p, s.transport.takeWrite = some t → s.src.readBytes 0 (s.sendHdr c).size.toNat = some p →
      AllNext P (sendStep4 c (State.requestWrite { s with transport := t } (.send4 c) p))) :
    AllNext P (sendStep3 c s) := by
  unfold sendStep3
  split
  · exact wait
  · split
    · trivial
    · exact taken _ _ ‹_› ‹_›

theorem allNext_sendStep2 {P : State → Prop} {s : State} {c : Caller} (wait : P s)
    (taken : ∀ t, s.transport.takeBeginTransmission = some t →
      AllNext P (sendStep3 c (State.requestWrite { s with transport := t } (.send3 c) (buildHeader (s.sendHdr c))))) :
    AllNext P (sendStep2 c s) := by
  unfold sendStep2
  split
  · exact wait
  · exact taken _ ‹_›

theorem allNext_sendStep1 {P : State → Prop} {s : State} {c : Caller}
    (go : ∀ p, s.src.readBytes 0 s.cmdArg.toNat = some p →
      AllNext P (sendStep2 c (State.request (s.loadSendHdr c (s.sentHeader s.cmdDst s.cmdArg p))
        (.send2 c) .tBeginTransmission))) : AllNext P (sendStep1 c s) := by
  unfold sendStep1
  split
  · trivial
  · exact go _ ‹_›

theorem allNext_execSend {P : State → Prop} {s : State} {dst : Byte} {size : U16}
    (shut : ∀ c, s.phase = c.restPhase → s.status = .notInitialized → P (s.reject c .notInitialized .bare))
    (go : ∀ c, s.phase = c.restPhase → s.status ≠ .notInitialized →
      AllNext P (sendStep1 c { s with cmdDst := dst, cmdArg := size, phase := .send1 c })) :
    AllNext P (execSend dst size s) :=
  allNext_accept fun c hc => allNext_gate (shut c hc) (go c hc)

/-! ### The events of a drain -/

/-- A drain records nothing but reads and their answers. -/
theorem drainEvents_onlyReads (left : Nat) (vs : List (Option Byte)) : onlyReads (drainEvents left vs) := by
  induction vs with
  | nil => intro e he; simp [drainEvents] at he
  | cons v vs ih =>
    intro e he
    cases vs with
    | nil =>
      simp only [drainEvents] at he
      split at he <;> simp at he <;> rcases he with rfl | rfl <;> simp
    | cons w ws =>
      simp only [drainEvents, List.mem_cons] at he
      rcases he with rfl | rfl | he
      · exact .inr ⟨v, rfl⟩
      · exact .inl rfl
      · exact ih e (by simpa [drainEvents] using he)

/-- A fold over a trace that reads and their answers leave alone is left alone by a drain. -/
theorem foldl_onlyReads {β : Type} (f : β → Event → β) (b : β) (es : List Event) (h : onlyReads es)
    (req : f b (.request .tRead) = b) (ans : ∀ v, f b (.answer (.tRead v)) = b) : es.foldl f b = b := by
  induction es with
  | nil => rfl
  | cons e es ih =>
    rw [List.foldl_cons]
    have he : f b e = b := by
      rcases h e (by simp) with rfl | ⟨v, rfl⟩
      · exact req
      · exact ans v
    rw [he]
    exact ih fun x hx => h x (by simp [hx])

end Sys2Proof.Machine
end

