-- ==== Sys2Proof/Laws/PerInstr.lean ====
section
/-! SUPPORT. Statements about every operation as syntax, one lemma a constructor. -/

namespace Sys2Proof.Laws

/-- The word of an operation carries the operation's code in its `op` field (30_encoding R77, R78). -/
def OpField.Statement (i : Instr) : Prop := opField (encode i) = opcode i

theorem OpField.begin : OpField.Statement .begin := opField_packWord _ _ _
theorem OpField.haserr : OpField.Statement .haserr := opField_packWord _ _ _
theorem OpField.geterr : OpField.Statement .geterr := opField_packWord _ _ _
theorem OpField.seth (ref : U16) : OpField.Statement (.seth ref) := opField_packWord _ _ _
theorem OpField.poll : OpField.Statement .poll := opField_packWord _ _ _
theorem OpField.recv (capacity : U16) : OpField.Statement (.recv capacity) := opField_packWord _ _ _
theorem OpField.send (dst : Byte) (size : U16) : OpField.Statement (.send dst size) := opField_packWord _ _ _
theorem OpField.recvl (rest : BitVec 28) : OpField.Statement (.recvl rest) := opField_encode_recvl _

end Sys2Proof.Laws
end

