-- ==== Sys2Proof/Laws/Sequencer.lean ====
section
/-! SUPPORT. Going on: what a step is in a running operation, and that an engine which goes on into a step runs that
step's part after its request, whether the answer is there or not. A path statement then follows from one equation per
step. -/

namespace Sys2Proof.Machine

theorem step_waiting {s : State} {ch : Channel} (h : s.waitingOn = some ch) : step s = .fault (.waiting ch) := by
  simp [step, nextMove, h]

/-- In a running operation whose answer is there, a step goes on with it. -/
theorem step_resume {s : State} (h : s.waitingOn = none) (idle : s.phase ≠ .idle) (disp : s.phase ≠ .dispatch) :
    step s = resume s := by
  cases hp : s.phase <;> simp_all [step, nextMove]

/-- The handler's return. -/
theorem step_ret {s : State} {moves : List HandlerMove} (disp : s.phase = .dispatch) (h : s.handler = .ret :: moves) :
    step s = pollStep6 { s with handler := moves, trace := s.trace ++ [.answer .hReturn] } := by
  simp [step, nextMove, State.waitingOn, disp, h, resume, awaitHandler]

/-- A transport that does not answer a read drains nothing. -/
theorem Transport.drain_unanswered {t : Transport} (n : Nat) (h : t.read = none) : t.drain n = ([], t) := by
  cases n <;> simp [Transport.drain, h]

/-- A drain of a transport that answers: the answer, and the drain of what is left. -/
theorem Transport.drain_answered {t t' : Transport} {v : Option Byte} (n : Nat) (h : t.read = some (v, t')) :
    t.drain (n + 1) = (v :: (t'.drain n).1, (t'.drain n).2) := by
  simp [Transport.drain, h]

theorem awaitDrain_waiting {s : State} {fin : State → State} (left : s.drainLeft ≠ 0) (h : s.transport.read = none) :
    s.awaitDrain fin = .next s := by
  have e : s.drainLeft.toNat ≠ 0 := fun c => left (BitVec.eq_of_toNat_eq (by simpa using c))
  simp [State.awaitDrain, Transport.drain_unanswered _ h, drainEvents, e]

/-- The last read of a drain. -/
theorem awaitDrain_last {s : State} {fin : State → State} {v : Option Byte} {t : Transport} (left : s.drainLeft = 1)
    (h : s.transport.read = some (v, t)) :
    s.awaitDrain fin =
      .next (fin { s with transport := t, drainLeft := 0, trace := s.trace ++ [.answer (.tRead v)] }) := by
  simp [State.awaitDrain, left, Transport.drain, h, drainEvents]

/-- Any other read of a drain: the answer, the next request, and the drain of what is left. -/
theorem awaitDrain_more {s : State} {fin : State → State} {v : Option Byte} {t : Transport}
    (left : 1 < s.drainLeft.toNat) (h : s.transport.read = some (v, t)) :
    s.awaitDrain fin =
      State.awaitDrain { s with transport := t, drainLeft := s.drainLeft - 1,
                                trace := s.trace ++ [.answer (.tRead v), .request .tRead] } fin := by
  obtain ⟨n, hn⟩ : ∃ n, s.drainLeft.toNat = n + 1 + 1 := ⟨s.drainLeft.toNat - 2, by omega⟩
  have h1 : (s.drainLeft - 1).toNat = n + 1 := by bv_omega
  unfold State.awaitDrain
  simp only [hn, h1, Transport.drain_answered (n + 1) h]
  cases hd : t.drain (n + 1) with
  | mk vs t' =>
    have e : n + 1 + 1 - (v :: vs).length = n + 1 - vs.length := by simp
    have ev : s.trace ++ drainEvents (n + 1 - vs.length) (v :: vs) =
        s.trace ++ [.answer (.tRead v), .request .tRead] ++ drainEvents (n + 1 - vs.length) vs := by
      cases vs <;> simp [drainEvents]
    simp only [e, ev]

/-- Going on into a step of a running operation is that step after its request. -/
theorem goesOn_resume {s : State} (idle : s.phase ≠ .idle) (disp : s.phase ≠ .dispatch) : goesOn s = resume s := by
  unfold goesOn
  split
  · rename_i ch h
    unfold State.waitingOn at h
    cases hp : s.phase <;> simp only [hp] at h idle disp <;> simp only [resume, hp] <;>
      first
        | exact absurd rfl idle
        | exact absurd rfl disp
        | cases h
        | (split at h
           · rename_i e
             first
               | simp [beginAwait, e]
               | simp [pollStep0, e]
               | simp [pollStep1, State.awaitHeader, State.awaitReadBytes, e]
               | simp [pollDrain, awaitDrain_waiting e.1 e.2]
               | simp [pollStep3, e]
               | simp [pollStep4, State.awaitReadBytes, e]
               | simp [recvStep1, State.awaitHeader, State.awaitReadBytes, e]
               | simp [recvDrain, awaitDrain_waiting e.1 e.2]
               | simp [recvStep3, State.awaitReadBytes, e]
               | simp [sendStep2, e]
               | simp [sendStep3, e]
               | simp [sendStep4, e]
               | simp [sendStep5, e]
           · cases h)
  · exact step_resume ‹_› idle disp

end Sys2Proof.Machine
end

