-- ==== Sys2Proof/Tests/Slice0.lean ====
section
/-! SUPPORT. The model's own tests, with expected results from 95_test_vectors, and for every statement with
hypotheses a state and operands that meet them. -/

namespace Sys2Proof.Tests

open Sys2Proof.Machine

/-! ## Well-formedness and decoding -/

theorem test_wf_recvl : Instr.wf (.recvl 0) = false := by decide
theorem test_wf_recvl_bits : Instr.wf (.recvl 0xFFFFFFF) = false := by decide
theorem test_wf_others :
    Instr.wf .begin ∧ Instr.wf .haserr ∧ Instr.wf .geterr ∧ Instr.wf (.seth 0) ∧ Instr.wf .poll ∧
    Instr.wf (.recv 0xFFFF) ∧ Instr.wf (.send 255 0xFFFF) := by decide

/-- V-E1 to V-E3, V-E5. -/
theorem test_decode_plain :
    decode 0x00000000 = .instr .begin ∧ decode 0x10000000 = .instr .haserr ∧ decode 0x20000000 = .instr .geterr ∧
    decode 0x40000000 = .instr .poll := by decide
/-- V-E4. -/
theorem test_decode_seth : decode 0x300000B2 = .instr (.seth 0x00B2) := by decide
/-- V-E6, V-E7. -/
theorem test_decode_recv : decode 0x50000040 = .instr (.recv 64) ∧ decode 0x500001F4 = .instr (.recv 500) := by decide
/-- V-E8 to V-E10. -/
theorem test_decode_send :
    decode 0x60020003 = .instr (.send 2 3) ∧ decode 0x60FF0004 = .instr (.send 255 4) ∧
    decode 0x60070000 = .instr (.send 7 0) := by decide
/-- V-E11: the reserved operation, whatever its other bits are. -/
theorem test_decode_recvl :
    decode 0x70000000 = .instr (.recvl 0) ∧ decode 0x7FFFFFFF = .instr (.recvl 0xFFFFFFF) := by decide
/-- V-E12 to V-E18. -/
theorem test_decode_reserved :
    decode 0x80000000 = .reserved .opcode ∧ decode 0xF0000000 = .reserved .opcode ∧
    decode 0x41000000 = .reserved .zNotZero ∧ decode 0x40000001 = .reserved .argNotZero ∧
    decode 0x00010000 = .reserved .dstNotZero ∧ decode 0x50020040 = .reserved .dstNotZero ∧
    decode 0x30FF0001 = .reserved .dstNotZero := by decide
/-- R83: the words of script lines. -/
theorem test_encode :
    encode .begin = 0x00000000 ∧ encode (.seth 0x00B2) = 0x300000B2 ∧ encode (.recv 64) = 0x50000040 ∧
    encode (.send 2 3) = 0x60020003 := by decide
theorem test_tableWord :
    decodeTableWord 32 0x60FF0004 = some (.send 255 4) ∧ decodeTableWord 32 0x41000000 = none := by decide

/-! ## Units -/

/-- V-H1, V-H5, V-H8. -/
theorem test_parseHeader :
    parseHeader [0x01, 0x02, 0x03, 0x00, 0x31, 0x61] = some { src := 1, dst := 2, size := 3, crc := 0x6131 } ∧
    parseHeader [0x09, 0x02, 0x10, 0x27, 0x00, 0x00] = some { src := 9, dst := 2, size := 10000, crc := 0 } ∧
    parseHeader [0x00, 0x31, 0x61, 0x01, 0x02, 0x03] = some { src := 0, dst := 49, size := 353, crc := 0x0302 } := by
  decide
/-- V-H11. -/
theorem test_buildHeader :
    buildHeader { src := 254, dst := 0, size := 0x1234, crc := 0xABCD } = [0xFE, 0x00, 0x34, 0x12, 0xCD, 0xAB] := by
  decide
/-- V-S2, V-S3, V-S7 to V-S9, V-S12: the boundaries. -/
theorem test_overSize :
    overSizePoll 500 = false ∧ overSizePoll 501 = true ∧ overSizeRecv 3 2 = true ∧ overSizeRecv 0 0 = false ∧
    overSizeRecv 1 0 = true ∧ overSizeRecv 500 500 = false ∧ overSizeRecv 500 499 = true ∧
    overSizeRecv 501 65535 = true := by decide
/-- V-C1, V-C2, V-C5, V-C6, with the test checksum. -/
theorem test_crcOK :
    crcOK .testXmodem [0x01, 0x02, 0x03] 0x6131 = true ∧ crcOK .testXmodem [0x01, 0x02, 0x07] 0x6131 = false ∧
    crcOK .testXmodem [] 0x0001 = false ∧ crcOK .testXmodem [0x01, 0x02, 0x03] 0x3161 = false := by
  decide +kernel
/-- V-A1 to V-A7. -/
theorem test_addrAccept :
    addrAccept 2 2 = true ∧ addrAccept 2 255 = true ∧ addrAccept 2 7 = false ∧ addrAccept 2 0 = false ∧
    addrAccept 0 0 = true ∧ addrAccept 254 255 = true ∧ addrAccept 254 254 = true ∧ addrAccept 7 2 = false := by decide

/-! ## Steps on small states -/

/-- Node 2 of 95_test_vectors 3.7 and 3.8: `Ready`, handler `0x00B2`, a queue of bytes. -/
def node (q : List Byte) : State :=
  { State.reset with localId := 2, status := .ready, handlerValid := true, handlerRef := 0x00B2,
                     crcUnit := .testXmodem, transport := .queue q }

/-- The frame of V-P7. -/
def frame : List Byte := [0x01, 0x02, 0x03, 0x00, 0x31, 0x61, 0x01, 0x02, 0x03]

/-- The header of V-P7. -/
def header : Header := { src := 1, dst := 2, size := 3, crc := 0x6131 }

/-- A payload as a byte space. -/
def space (d : List Byte) : Memory := Memory.writeBytes [] 0 d

/-- A POLL that waits for its handler. -/
def inDispatch : State :=
  { node [] with phase := .dispatch, hdr := header, bufh := some 0, pbuf := space [1, 2, 3],
                 trace := [.answer (.aAcquire (.ok 0)), .request (.hHandle 0x00B2 header [1, 2, 3])] }

/-- A POLL at step 4, with its buffer held. -/
def atStep4 (q : List Byte) : State := { node q with phase := .poll4, hdr := header, bufh := some 0 }

/-- A part of the next state, if there is one. -/
def after {α : Type} (f : State → α) : Result → Option α
  | .next t => some (f t)
  | .fault _ => none
  | .refused _ => none

/-- V-L2. -/
theorem test_begin : after (fun t => (t.status, t.phase)) (exec .begin State.reset) = some (.ready, .idle) := by decide
/-- V-L4: the handler is kept. -/
theorem test_begin_keeps_handler :
    after (fun t => (t.status, t.handlerValid, t.handlerRef)) (exec .begin { node [] with status := .crcError }) =
      some (.ready, true, 0x00B2) := by decide
/-- V-L1, V-L8. -/
theorem test_haserr :
    after (·.responses) (exec .haserr State.reset) = some [(.host, .hasErr true)] ∧
    after (·.responses) (exec .haserr (node [])) = some [(.host, .hasErr false)] := by decide
/-- V-L3: reading does not clear. -/
theorem test_geterr :
    after (fun t => (t.status, t.responses)) (exec .geterr { node [] with status := .crcError }) =
      some (.crcError, [(.host, .getErr 4)]) := by decide
/-- V-L7, V-L9. -/
theorem test_seth :
    after (fun t => (t.handlerValid, t.handlerRef)) (exec (.seth 2) (node [])) = some (true, 2) ∧
    after (fun t => (t.handlerValid, t.handlerRef)) (exec (.seth 0) State.reset) = some (true, 0) := by decide
/-- V-P8: a broadcast reaches the handler, which returns; the trace is the vector's. -/
theorem test_poll_dispatch :
    after (fun t => (t.status, t.transport, t.trace))
        (exec .poll { node [0x01, 0xFF, 0x04, 0x00, 0xE7, 0xE0, 0x50, 0x49, 0x4E, 0x47] with handler := [.ret] }) =
      some (.ready, .queue [],
        [.request .tAvailable, .answer (.tAvailable true), .request (.tReadBytes 6),
         .answer (.tReadBytes 6 [0x01, 0xFF, 0x04, 0x00, 0xE7, 0xE0]), .request (.aAcquire 4),
         .answer (.aAcquire (.ok 0)), .request (.tReadBytes 4), .answer (.tReadBytes 4 [0x50, 0x49, 0x4E, 0x47]),
         .request (.hHandle 0x00B2 { src := 1, dst := 255, size := 4, crc := 0xE0E7 } [0x50, 0x49, 0x4E, 0x47]),
         .answer .hReturn, .request (.aRelease 0)]) := by decide
/-- V-P5: the payload of a frame whose buffer is refused stays in the stream. -/
theorem test_poll_allocation :
    after (fun t => (t.status, t.transport)) (exec .poll { node frame with allocator := .answers [.fail] }) =
      some (.allocationFailure, .queue [1, 2, 3]) := by decide
/-- S1. -/
theorem test_recv :
    after (fun t => (t.responses, t.cbuf)) (exec (.recv 64) (node frame)) =
      some ([(.host, .recv 3 header)], [(0, 1), (1, 2), (2, 3)]) := by decide +kernel
/-- V-R6: a legal frame that does not fit is drained. -/
theorem test_recv_oversize :
    after (fun t => (t.transport, t.cbuf, t.responses)) (exec (.recv 2) (node frame)) =
      some (.queue [], [], [(.host, .recv 0 header)]) := by decide +kernel
/-- P1 step 4. -/
theorem test_send :
    after (·.tx) (exec (.send 2 3) { node [] with localId := 1, src := space [1, 2, 3] }) = some frame := by
  decide +kernel
/-- P6 step 9: a reply from inside the handler leaves the header of the POLL alone. -/
theorem test_send_nested :
    after (fun t => (t.tx, t.hdr, t.phase)) (exec (.send 1 2) { inDispatch with src := space [0x4F, 0x4B] }) =
      some ([0x02, 0x01, 0x02, 0x00, 0x5D, 0xE4, 0x4F, 0x4B], header, .dispatch) := by decide +kernel
/-- V-E11. -/
theorem test_recvl :
    after (fun t => (t.status, t.trace, t.responses)) (exec (.recvl 0) (node [])) =
      some (.ready, [], [(.host, .done)]) := by decide
/-- V-P17: an engine that waits has no step of its own. -/
theorem test_waiting :
    step { node [] with phase := .poll1, transport := .blocking [1, 2, 3, 0] } = .fault (.waiting .tReadBytes) := rfl
/-- The same engine once the line has carried the rest of the header: a step goes on with the POLL (V-P17, R251). -/
theorem test_resume :
    after (fun t => (t.phase, t.hdr, t.status))
        (step (State.environment { node [] with phase := .poll1, transport := .blocking [1, 2, 3, 0] }
          (.lineBytes [0x31, 0x61]))) = some (.poll4, header, .ready) := by decide
/-- P1 step 4: the reference bus does not echo. -/
theorem test_bus :
    (match (Bus.mk .testXmodem [{ node [] with localId := 1, cmds := [{ word := 0x60020003, space := space [1, 2, 3] }] },
        node []]).stepNode 0 with
      | some (.next b) => b.nodes.map (·.transport)
      | _ => []) = [.queue [], .queue frame] := by decide +kernel
theorem test_withFetchWord :
    after (·.responses) (step (State.reset.withFetchWord 32 0x10000000)) = some [(.host, .hasErr true)] := by decide
theorem test_reset_canonical : State.reset.canonical :=
  ⟨rfl, rfl, rfl, by decide, fun _ h => by simp [State.reset] at h⟩

/-! ## Witnesses: what meets the hypotheses of each statement -/

theorem witness_EncodeOfDecode :
    decode 0x60FF0004 = .instr (.send 255 4) ∧ decode 0x7FFFFFFF = .instr (.recvl 0xFFFFFFF) := by decide

/-- Each clause at a boundary of its range, and the words beside it that are not rejected. -/
theorem witness_DecoderRejectsReservedWords :
    (opField 0x80000000 = 8 ∧ opField 0xFFFFFFFF = 15 ∧ opField 0x7FFFFFFF = 7) ∧
    (zField 0x61000000 = 1 ∧ zField 0x6F000000 = 15 ∧ decode 0x71000000 = .instr (.recvl 0x1000000)) ∧
    (dstField 0x50010000 = 1 ∧ decode 0x60010000 = .instr (.send 1 0)) ∧
    (argField 0x40000001 = 1 ∧ decode 0x30000001 = .instr (.seth 1)) := by decide

theorem witness_StepRunsTheDecodedCommand :
    ∃ (s s' : State) (c : Command) (i : Instr), decode c.word = .instr i ∧ s.phase = .idle ∧ s.cmds = [c] ∧
      s'.phase = .dispatch ∧ s'.handler = [.command c] :=
  ⟨{ node [] with cmds := [{ word := 0x60020000, space := [] }] },
   { inDispatch with handler := [.command { word := 0x60020000, space := [] }] },
   { word := 0x60020000, space := [] }, .send 2 0, by decide, by decide, by decide, by decide, by decide⟩

/-- From the handler: a word for GETERR's kind of response, and one for none. -/
theorem witness_ReservedWordHasNoEffect_handler :
    (∃ (s : State) (why : Reserved), s.phase = .dispatch ∧ s.handler = [.command { word := 0x20000001, space := [] }] ∧
      decode 0x20000001 = .reserved why) ∧
    (∃ (s : State) (why : Reserved), s.phase = .dispatch ∧ s.handler = [.command { word := 0x80000000, space := [] }] ∧
      decode 0x80000000 = .reserved why) :=
  ⟨⟨{ inDispatch with handler := [.command { word := 0x20000001, space := [] }] }, .argNotZero, rfl, rfl, by decide⟩,
   ⟨{ inDispatch with handler := [.command { word := 0x80000000, space := [] }] }, .opcode, rfl, rfl, by decide⟩⟩

/-- From the host: one word for each kind of response. -/
theorem witness_ReservedWordHasNoEffect :
    (∀ w ∈ [0x10000001, 0x20000001, 0x50010000, 0x41000000, 0xF0000000],
      ∃ (s : State) (why : Reserved), s.phase = .idle ∧ s.cmds = [{ word := w, space := [] }] ∧
        decode w = .reserved why) := by
  intro w hw
  simp only [List.mem_cons, List.not_mem_nil, or_false] at hw
  rcases hw with rfl | rfl | rfl | rfl | rfl
  · exact ⟨{ node [] with cmds := [{ word := 0x10000001, space := [] }] }, .argNotZero, rfl, rfl, by decide⟩
  · exact ⟨{ node [] with cmds := [{ word := 0x20000001, space := [] }] }, .argNotZero, rfl, rfl, by decide⟩
  · exact ⟨{ node [] with cmds := [{ word := 0x50010000, space := [] }] }, .dstNotZero, rfl, rfl, by decide⟩
  · exact ⟨{ node [] with cmds := [{ word := 0x41000000, space := [] }] }, .zNotZero, rfl, rfl, by decide⟩
  · exact ⟨{ node [] with cmds := [{ word := 0xF0000000, space := [] }] }, .opcode, rfl, rfl, by decide⟩

/-- Both callers find the engine where their commands are taken (also for HASERR, GETERR, SETH). -/
theorem witness_RecvlHasNoEffect :
    (node []).phase = Caller.host.restPhase ∧ inDispatch.phase = Caller.handler.restPhase := by decide
theorem witness_HaserrAnswersNotReady :
    (node []).phase = Caller.host.restPhase ∧ inDispatch.phase = Caller.handler.restPhase := by decide
theorem witness_GeterrAnswersTheStatus :
    (node []).phase = Caller.host.restPhase ∧ inDispatch.phase = Caller.handler.restPhase := by decide
theorem witness_SethRegistersTheHandler :
    (node []).phase = Caller.host.restPhase ∧ inDispatch.phase = Caller.handler.restPhase := by decide

/-- A running operation with a command queued; and a POLL that meets the handler's return in the step that calls it. -/
theorem witness_BusyEngineServesNoCommand :
    (∃ s t : State, s.phase ≠ .idle ∧ s.phase ≠ .dispatch ∧ s.cmds ≠ [] ∧ step s = .next t ∧ t.handler = s.handler) ∧
    (∃ s t : State, s.phase ≠ .idle ∧ s.phase ≠ .dispatch ∧ step s = .next t ∧ s.handler = .ret :: t.handler) :=
  ⟨⟨{ node [1] with phase := .poll1, cmds := [{ word := 0, space := [] }] }, _, by decide, by decide, by decide, rfl, rfl⟩,
   ⟨{ inDispatch with phase := .poll5, handler := [.ret] }, _, by decide, by decide, rfl, rfl⟩⟩

theorem witness_GateRejectsBeforeBegin :
    State.reset.status = .notInitialized ∧ State.reset.phase = .idle ∧
    State.reset.phase = Caller.host.restPhase ∧
    ∃ s : State, s.status = .notInitialized ∧ s.phase = Caller.handler.restPhase :=
  ⟨rfl, rfl, rfl, { State.reset with phase := .dispatch }, rfl, rfl⟩

theorem witness_HandlerMayNotReceiveOrBegin : inDispatch.phase = .dispatch := by decide

/-- At rest; and at step 1. -/
theorem witness_BeginStoresReady :
    (∃ (s : State) (t : Transport), s.phase = .idle ∧ s.transport.takeBegin = some t) ∧
    (∃ (s : State) (t : Transport), s.phase = .begin1 ∧ s.transport.takeBegin = some t) :=
  ⟨⟨node [], .queue [], by decide, by decide⟩, ⟨{ node [] with phase := .begin1 }, .queue [], by decide, by decide⟩⟩

/-- At rest; and at step 0. -/
theorem witness_PollIdle :
    (∃ (s : State) (t : Transport), s.phase = .idle ∧ s.status ≠ .notInitialized ∧
      s.transport.available = some (false, t)) ∧
    (∃ (s : State) (t : Transport), s.phase = .poll0 ∧ s.transport.available = some (false, t)) :=
  ⟨⟨node [], .queue [], by decide, by decide, by decide⟩,
   ⟨{ node [] with phase := .poll0 }, .queue [], by decide, by decide⟩⟩

/-- V-P3; and no byte at all. -/
theorem witness_PollShortHeader :
    (∃ (s : State) (t1 t2 : Transport) (k : U16) (d : List Byte), s.phase = .idle ∧ s.status ≠ .notInitialized ∧
      s.transport.available = some (true, t1) ∧ shortRead t1 6 k d t2) ∧
    (∃ t1 t2 : Transport, shortRead t1 6 0 [] t2) :=
  ⟨⟨node [1, 2, 3], .queue [1, 2, 3], .queue [], 3, [1, 2, 3], by decide, by decide, by decide,
    by decide, by decide, by decide⟩,
   ⟨.queue [], .queue [], by decide, by decide, by decide⟩⟩

/-- Step 0 with bytes there, and step 1 with a header cut short. -/
theorem witness_PollShortHeader_resumed :
    (∃ (s : State) (t : Transport), s.phase = .poll0 ∧ s.transport.available = some (true, t)) ∧
    (∃ (s : State) (t : Transport), s.phase = .poll1 ∧ shortRead s.transport 6 5 [1, 2, 3, 4, 5] t) :=
  ⟨⟨{ node [1] with phase := .poll0 }, .queue [1], by decide, by decide⟩,
   ⟨{ node [1, 2, 3, 4, 5] with phase := .poll1 }, .queue [], by decide, by decide, by decide, by decide⟩⟩

/-- QueueTransport answers every read of a drain. -/
theorem drain_answered (n : U16) (q : List Byte) :
    ∃ (vs : List (Option Byte)) (t : Transport), drainAnswered (.queue q) n vs t :=
  ⟨((Transport.queue q).drain n.toNat).1, ((Transport.queue q).drain n.toNat).2, rfl,
   (Transport.drain_queue n.toNat q).1⟩

/-- A header of size 501, the least that is too large, before an empty queue. -/
theorem witness_PollOversizeDrains :
    ∃ (s : State) (t1 t2 t3 : Transport) (d : List Byte) (h : Header) (vs : List (Option Byte)), s.phase = .idle ∧
      s.status ≠ .notInitialized ∧ s.transport.available = some (true, t1) ∧ headerArrives t1 d h t2 ∧
      500 < h.size.toNat ∧ drainAnswered t2 h.size vs t3 := by
  obtain ⟨vs, t, hd⟩ := drain_answered 501 []
  exact ⟨node [1, 2, 0xF5, 1, 0xEC, 0x77], .queue [1, 2, 0xF5, 1, 0xEC, 0x77], .queue [], t,
    [1, 2, 0xF5, 1, 0xEC, 0x77], { src := 1, dst := 2, size := 501, crc := 0x77EC }, vs, by decide, by decide,
    by decide, ⟨by decide, by decide⟩, by decide, hd⟩

/-- Step 1 with a header that is just too large, and a read of the drain that is not and that is the last. -/
theorem witness_PollOversizeDrains_resumed :
    (∃ (s : State) (t : Transport) (d : List Byte) (h : Header), s.phase = .poll1 ∧ headerArrives s.transport d h t ∧
      h.size.toNat = 501) ∧
    (∃ (s : State) (v : Option Byte) (t : Transport), s.phase = .poll2 ∧ s.transport.read = some (v, t) ∧
      s.drainLeft = 2) ∧
    (∃ (s : State) (v : Option Byte) (t : Transport), s.phase = .poll2 ∧ s.transport.read = some (v, t) ∧
      s.drainLeft = 1) :=
  ⟨⟨{ node [1, 2, 0xF5, 1, 0xEC, 0x77] with phase := .poll1 }, .queue [], [1, 2, 0xF5, 1, 0xEC, 0x77],
    { src := 1, dst := 2, size := 501, crc := 0x77EC }, by decide, ⟨by decide, by decide⟩, by decide⟩,
   ⟨{ node [7] with phase := .poll2, drainLeft := 2 }, some 7, .queue [], by decide, by decide, by decide⟩,
   ⟨{ node [] with phase := .poll2, drainLeft := 1 }, none, .queue [], by decide, by decide, by decide⟩⟩

theorem witness_PollAllocationFailure :
    ∃ (s : State) (t1 t2 : Transport) (d : List Byte) (h : Header) (a : Allocator), s.phase = .idle ∧
      s.status ≠ .notInitialized ∧ s.transport.available = some (true, t1) ∧ headerArrives t1 d h t2 ∧
      h.size.toNat ≤ 500 ∧ s.allocator.acquire = some (.fail, a) :=
  ⟨{ node frame with allocator := .answers [.fail] }, .queue frame, .queue [1, 2, 3], [1, 2, 3, 0, 0x31, 0x61], header,
   .answers [], by decide, by decide, by decide, ⟨by decide, by decide⟩, by decide, by decide⟩

/-- From step 3 (a step that raises the error is in witness_StatusWriters). -/
theorem witness_PollAllocationFailure_resumed :
    ∃ (s : State) (a : Allocator), s.phase = .poll3 ∧ s.allocator.acquire = some (.fail, a) :=
  ⟨{ node [] with phase := .poll3, allocator := .answers [.fail] }, .answers [], by decide, by decide⟩

/-- V-P6. -/
theorem witness_PollShortPayload :
    ∃ (s : State) (t1 t2 t3 : Transport) (d p : List Byte) (h : Header) (a : Allocator) (g : Handle) (k : U16),
      s.phase = .idle ∧ s.status ≠ .notInitialized ∧ s.transport.available = some (true, t1) ∧
      headerArrives t1 d h t2 ∧ h.size.toNat ≤ 500 ∧ s.allocator.acquire = some (.ok g, a) ∧
      shortRead t2 h.size k p t3 :=
  ⟨node [3, 2, 5, 0, 0x62, 0xC3, 0x68, 0x65, 0x6C], .queue [3, 2, 5, 0, 0x62, 0xC3, 0x68, 0x65, 0x6C],
   .queue [0x68, 0x65, 0x6C], .queue [], [3, 2, 5, 0, 0x62, 0xC3], [0x68, 0x65, 0x6C],
   { src := 3, dst := 2, size := 5, crc := 0xC362 }, .alwaysOk 1, 0, 3, by decide, by decide, by decide,
   ⟨by decide, by decide⟩, by decide, by decide, by decide, by decide, by decide⟩

/-- Step 1 with a header of the largest size, step 3 with a buffer granted, and step 4 with two of three bytes. -/
theorem witness_PollShortPayload_resumed :
    (∃ (s : State) (t : Transport) (d : List Byte) (h : Header), s.phase = .poll1 ∧ headerArrives s.transport d h t ∧
      h.size.toNat = 500) ∧
    (∃ (s : State) (a : Allocator) (g : Handle), s.phase = .poll3 ∧ s.allocator.acquire = some (.ok g, a)) ∧
    (∃ (s : State) (t : Transport) (g : Handle), s.phase = .poll4 ∧ s.bufh = some g ∧
      shortRead s.transport s.hdr.size 2 [1, 2] t) :=
  ⟨⟨{ node [1, 2, 0xF4, 1, 0, 0] with phase := .poll1 }, .queue [], [1, 2, 0xF4, 1, 0, 0],
    { src := 1, dst := 2, size := 500, crc := 0 }, by decide, ⟨by decide, by decide⟩, by decide⟩,
   ⟨{ node [] with phase := .poll3, hdr := header }, .alwaysOk 1, 0, by decide, by decide⟩,
   ⟨{ atStep4 [1, 2] with bufh := some 7 }, .queue [], 7, by decide, by decide, by decide, by decide, by decide⟩⟩

/-- V-P7 and V-P8: the node's own id and 255. -/
theorem witness_PollDispatches :
    ∃ (s : State) (t1 t2 t3 : Transport) (d p : List Byte) (h : Header) (a : Allocator) (g : Handle)
      (moves : List HandlerMove), s.phase = .idle ∧ s.status ≠ .notInitialized ∧
      s.transport.available = some (true, t1) ∧ headerArrives t1 d h t2 ∧ h.size.toNat ≤ 500 ∧
      s.allocator.acquire = some (.ok g, a) ∧ payloadArrives t2 h.size p t3 ∧
      (h.dst = localByte s.localId ∨ h.dst = 255) ∧ s.handlerValid = true ∧ s.handler = .ret :: moves :=
  ⟨{ node frame with handler := [.ret] }, .queue frame, .queue [1, 2, 3], .queue [], [1, 2, 3, 0, 0x31, 0x61], [1, 2, 3],
   header, .alwaysOk 1, 0, [], by decide, by decide, by decide, ⟨by decide, by decide⟩, by decide, by decide,
   ⟨by decide, by decide⟩, by decide, by decide, by decide⟩
theorem witness_PollDispatches_broadcast :
    ∃ (s : State) (t1 t2 t3 : Transport) (d p : List Byte) (h : Header) (a : Allocator) (g : Handle)
      (moves : List HandlerMove), s.phase = .idle ∧ s.status ≠ .notInitialized ∧
      s.transport.available = some (true, t1) ∧ headerArrives t1 d h t2 ∧ h.size.toNat ≤ 500 ∧
      s.allocator.acquire = some (.ok g, a) ∧ payloadArrives t2 h.size p t3 ∧
      h.dst = 255 ∧ s.handlerValid = true ∧ s.handler = .ret :: moves :=
  ⟨{ node [7, 0xFF, 0, 0, 0, 0] with handler := [.ret] }, .queue [7, 0xFF, 0, 0, 0, 0], .queue [], .queue [],
   [7, 0xFF, 0, 0, 0, 0], [], { src := 7, dst := 255, size := 0, crc := 0 }, .alwaysOk 1, 0, [], by decide, by decide,
   by decide, ⟨by decide, by decide⟩, by decide, by decide, ⟨by decide, by decide⟩, by decide, by decide, by decide⟩

/-- From step 4. -/
theorem witness_PollDispatches_resumed :
    ∃ (s : State) (t : Transport) (g : Handle), s.phase = .poll4 ∧ s.bufh = some g ∧
      payloadArrives s.transport s.hdr.size [1, 2, 3] t ∧ (s.hdr.dst = localByte s.localId ∨ s.hdr.dst = 255) ∧
      s.handlerValid = true ∧ s.handler = [.ret] :=
  ⟨{ atStep4 [1, 2, 3] with handler := [.ret] }, .queue [], 0, by decide, by decide, ⟨by decide, by decide⟩, by decide,
   by decide, by decide⟩

theorem witness_PollWaitsInDispatch :
    ∃ (s : State) (t1 t2 t3 : Transport) (d p : List Byte) (h : Header) (a : Allocator) (g : Handle),
      s.phase = .idle ∧ s.status ≠ .notInitialized ∧ s.transport.available = some (true, t1) ∧
      headerArrives t1 d h t2 ∧ h.size.toNat ≤ 500 ∧ s.allocator.acquire = some (.ok g, a) ∧
      payloadArrives t2 h.size p t3 ∧ addrAccept s.localId h.dst = true ∧ s.handlerValid = true ∧
      ∀ moves, s.handler ≠ .ret :: moves :=
  ⟨node frame, .queue frame, .queue [1, 2, 3], .queue [], [1, 2, 3, 0, 0x31, 0x61], [1, 2, 3],
   header, .alwaysOk 1, 0, by decide, by decide, by decide, ⟨by decide, by decide⟩, by decide, by decide,
   ⟨by decide, by decide⟩, by decide, by decide, fun _ h => nomatch h⟩

/-- From step 4, before a handler that has nothing to do yet and before one with a command. -/
theorem witness_PollWaitsInDispatch_resumed :
    (∃ (s : State) (t : Transport), s.phase = .poll4 ∧ payloadArrives s.transport s.hdr.size [1, 2, 3] t ∧
      addrAccept s.localId s.hdr.dst = true ∧ s.handlerValid = true ∧ s.handler = []) ∧
    (∃ (s : State) (t : Transport), s.phase = .poll4 ∧ payloadArrives s.transport s.hdr.size [1, 2, 3] t ∧
      addrAccept s.localId s.hdr.dst = true ∧ s.handlerValid = true ∧ ∀ moves, s.handler ≠ .ret :: moves) :=
  ⟨⟨atStep4 [1, 2, 3], .queue [], by decide, ⟨by decide, by decide⟩, by decide, by decide, by decide⟩,
   ⟨{ atStep4 [1, 2, 3] with handler := [.command { word := 0, space := [] }] }, .queue [], by decide,
    ⟨by decide, by decide⟩, by decide, by decide, fun _ h => nomatch h⟩⟩

theorem witness_HandlerReturnEndsPoll :
    ∃ (s : State) (moves : List HandlerMove) (g : Handle), s.phase = .dispatch ∧ s.handler = .ret :: moves ∧
      s.bufh = some g :=
  ⟨{ inDispatch with handler := [.ret] }, [], 0, by decide, by decide, by decide⟩

/-- V-P9. -/
theorem witness_PollDropsOtherDestinations :
    ∃ (s : State) (t1 t2 t3 : Transport) (d p : List Byte) (h : Header) (a : Allocator) (g : Handle),
      s.phase = .idle ∧ s.status ≠ .notInitialized ∧ s.transport.available = some (true, t1) ∧
      headerArrives t1 d h t2 ∧ h.size.toNat ≤ 500 ∧ s.allocator.acquire = some (.ok g, a) ∧
      payloadArrives t2 h.size p t3 ∧ h.dst ≠ localByte s.localId ∧ h.dst ≠ 255 :=
  ⟨{ node frame with localId := 7 }, .queue frame, .queue [1, 2, 3], .queue [], [1, 2, 3, 0, 0x31, 0x61], [1, 2, 3],
   header, .alwaysOk 1, 0, by decide, by decide, by decide, ⟨by decide, by decide⟩, by decide, by decide,
   ⟨by decide, by decide⟩, by decide, by decide⟩

/-- From step 4. -/
theorem witness_PollDropsOtherDestinations_resumed :
    ∃ (s : State) (t : Transport) (g : Handle), s.phase = .poll4 ∧ s.bufh = some g ∧
      payloadArrives s.transport s.hdr.size [1, 2, 3] t ∧ s.hdr.dst ≠ localByte s.localId ∧ s.hdr.dst ≠ 255 :=
  ⟨{ atStep4 [1, 2, 3] with localId := 7 }, .queue [], 0, by decide, by decide, ⟨by decide, by decide⟩, by decide,
   by decide⟩

theorem witness_PollWithoutHandler :
    ∃ (s : State) (t1 t2 t3 : Transport) (d p : List Byte) (h : Header) (a : Allocator) (g : Handle),
      s.phase = .idle ∧ s.status ≠ .notInitialized ∧ s.transport.available = some (true, t1) ∧
      headerArrives t1 d h t2 ∧ h.size.toNat ≤ 500 ∧ s.allocator.acquire = some (.ok g, a) ∧
      payloadArrives t2 h.size p t3 ∧ s.handlerValid = false :=
  ⟨{ node frame with handlerValid := false }, .queue frame, .queue [1, 2, 3], .queue [], [1, 2, 3, 0, 0x31, 0x61],
   [1, 2, 3], header, .alwaysOk 1, 0, by decide, by decide, by decide, ⟨by decide, by decide⟩, by decide, by decide,
   ⟨by decide, by decide⟩, by decide⟩

/-- From step 4. -/
theorem witness_PollWithoutHandler_resumed :
    ∃ (s : State) (t : Transport) (g : Handle), s.phase = .poll4 ∧ s.bufh = some g ∧
      payloadArrives s.transport s.hdr.size [1, 2, 3] t ∧ s.handlerValid = false :=
  ⟨{ atStep4 [1, 2, 3] with handlerValid := false }, .queue [], 0, by decide, by decide, ⟨by decide, by decide⟩,
   by decide⟩

theorem witness_PollComparesNoChecksum :
    ∃ s : State, s.phase ∈ [.poll0, .poll1, .poll2, .poll3, .poll4, .poll5, .poll6] :=
  ⟨{ node frame with phase := .poll6 }, by decide⟩

/-- The operation from rest, a step that goes on with it, and the return that ends its dispatch. -/
theorem witness_PollFrame :
    (∃ s t : State, exec .poll s = .next t) ∧ (∃ s t : State, step s = .next t ∧ s.phase = .poll4) ∧
    (∃ s t : State, step s = .next t ∧ s.phase = .dispatch ∧ s.handler = [.ret]) :=
  ⟨⟨node frame, _, rfl⟩, ⟨atStep4 [1, 2, 3], _, rfl, by decide⟩, ⟨{ inDispatch with handler := [.ret] }, _, rfl, by decide,
   by decide⟩⟩

/-- S1, with a capacity that is just enough. -/
theorem witness_RecvReceives :
    ∃ (s : State) (capacity : U16) (t1 t2 : Transport) (d p : List Byte) (h : Header),
      s.phase = .idle ∧ s.status ≠ .notInitialized ∧ headerArrives s.transport d h t1 ∧ h.size.toNat ≤ 500 ∧
      h.size.toNat ≤ capacity.toNat ∧ payloadArrives t1 h.size p t2 ∧ s.crcUnit.crc16 p = h.crc :=
  ⟨node frame, 3, .queue [1, 2, 3], .queue [], [1, 2, 3, 0, 0x31, 0x61], [1, 2, 3], header, by decide, by decide,
   ⟨by decide, by decide⟩, by decide, by decide, ⟨by decide, by decide⟩, by decide +kernel⟩

/-- Step 1 with a header that fits exactly, and step 3 with the whole payload. -/
theorem witness_RecvReceives_resumed :
    (∃ (s : State) (t : Transport) (d : List Byte) (h : Header), s.phase = .recv1 ∧ headerArrives s.transport d h t ∧
      h.size.toNat ≤ 500 ∧ h.size.toNat = s.cmdArg.toNat) ∧
    (∃ (s : State) (t : Transport) (p : List Byte), s.phase = .recv3 ∧ payloadArrives s.transport s.hdr.size p t ∧
      s.crcUnit.crc16 p = s.hdr.crc) :=
  ⟨⟨{ node frame with phase := .recv1, cmdArg := 3 }, .queue [1, 2, 3], [1, 2, 3, 0, 0x31, 0x61], header, by decide,
    ⟨by decide, by decide⟩, by decide, by decide⟩,
   ⟨{ node [1, 2, 3] with phase := .recv3, hdr := header }, .queue [], [1, 2, 3], by decide, ⟨by decide, by decide⟩,
    by decide +kernel⟩⟩

theorem witness_RecvShortHeader :
    ∃ (s : State) (t1 : Transport) (k : U16) (d : List Byte), s.phase = .idle ∧ s.status ≠ .notInitialized ∧
      shortRead s.transport 6 k d t1 :=
  ⟨node [1, 2, 3], .queue [], 3, [1, 2, 3], by decide, by decide, by decide, by decide, by decide⟩

/-- From step 1. -/
theorem witness_RecvShortHeader_resumed :
    ∃ (s : State) (t : Transport), s.phase = .recv1 ∧ shortRead s.transport 6 0 [] t :=
  ⟨{ node [] with phase := .recv1 }, .queue [], by decide, by decide, by decide, by decide⟩

/-- A legal frame that does not fit, and a size of 501 with room for it. -/
theorem witness_RecvOversizeDrains :
    (∃ (s : State) (capacity : U16) (t1 t2 : Transport) (d : List Byte) (h : Header) (vs : List (Option Byte)),
      s.phase = .idle ∧ s.status ≠ .notInitialized ∧ headerArrives s.transport d h t1 ∧
      (500 < h.size.toNat ∨ capacity.toNat < h.size.toNat) ∧ drainAnswered t1 h.size vs t2) ∧
    (∃ (s : State) (capacity : U16) (t1 t2 : Transport) (d : List Byte) (h : Header) (vs : List (Option Byte)),
      s.phase = .idle ∧ s.status ≠ .notInitialized ∧ headerArrives s.transport d h t1 ∧ 500 < h.size.toNat ∧
      h.size.toNat ≤ capacity.toNat ∧ drainAnswered t1 h.size vs t2) := by
  obtain ⟨vs, t, hd⟩ := drain_answered 501 []
  exact ⟨⟨node frame, 2, .queue [1, 2, 3], .queue [], [1, 2, 3, 0, 0x31, 0x61], header, [some 1, some 2, some 3], by decide,
    by decide, ⟨by decide, by decide⟩, by decide, ⟨by decide, by decide⟩⟩,
   ⟨node [1, 2, 0xF5, 1, 0xEC, 0x77], 501, .queue [], t, [1, 2, 0xF5, 1, 0xEC, 0x77],
    { src := 1, dst := 2, size := 501, crc := 0x77EC }, vs, by decide, by decide, ⟨by decide, by decide⟩, by decide,
    by decide, hd⟩⟩

/-- Step 1 with a header over the capacity by one, and a read of the drain that is not and that is the last. -/
theorem witness_RecvOversizeDrains_resumed :
    (∃ (s : State) (t : Transport) (d : List Byte) (h : Header), s.phase = .recv1 ∧ headerArrives s.transport d h t ∧
      (500 < h.size.toNat ∨ s.cmdArg.toNat < h.size.toNat)) ∧
    (∃ (s : State) (v : Option Byte) (t : Transport), s.phase = .recv2 ∧ s.transport.read = some (v, t) ∧
      s.drainLeft = 2) ∧
    (∃ (s : State) (v : Option Byte) (t : Transport), s.phase = .recv2 ∧ s.transport.read = some (v, t) ∧
      s.drainLeft = 1) :=
  ⟨⟨{ node frame with phase := .recv1, cmdArg := 2 }, .queue [1, 2, 3], [1, 2, 3, 0, 0x31, 0x61], header, by decide,
    ⟨by decide, by decide⟩, by decide⟩,
   ⟨{ node [7] with phase := .recv2, drainLeft := 2 }, some 7, .queue [], by decide, by decide, by decide⟩,
   ⟨{ node [] with phase := .recv2, drainLeft := 1 }, none, .queue [], by decide, by decide, by decide⟩⟩

/-- V-R8. -/
theorem witness_RecvShortPayload :
    ∃ (s : State) (capacity : U16) (t1 t2 : Transport) (d p : List Byte) (h : Header) (k : U16),
      s.phase = .idle ∧ s.status ≠ .notInitialized ∧ headerArrives s.transport d h t1 ∧ h.size.toNat ≤ 500 ∧
      h.size.toNat ≤ capacity.toNat ∧ shortRead t1 h.size k p t2 :=
  ⟨node [3, 9, 5, 0, 0x62, 0xC3, 0x68, 0x65, 0x6C], 64, .queue [0x68, 0x65, 0x6C], .queue [], [3, 9, 5, 0, 0x62, 0xC3],
   [0x68, 0x65, 0x6C], { src := 3, dst := 9, size := 5, crc := 0xC362 }, 3, by decide, by decide,
   ⟨by decide, by decide⟩, by decide, by decide, by decide, by decide, by decide⟩

/-- From step 3. -/
theorem witness_RecvShortPayload_resumed :
    ∃ (s : State) (t : Transport), s.phase = .recv3 ∧ shortRead s.transport s.hdr.size 2 [1, 2] t :=
  ⟨{ node [1, 2] with phase := .recv3, hdr := header }, .queue [], by decide, by decide, by decide, by decide⟩

/-- V-R7. -/
theorem witness_RecvCrcMismatch :
    ∃ (s : State) (capacity : U16) (t1 t2 : Transport) (d p : List Byte) (h : Header),
      s.phase = .idle ∧ s.status ≠ .notInitialized ∧ headerArrives s.transport d h t1 ∧ h.size.toNat ≤ 500 ∧
      h.size.toNat ≤ capacity.toNat ∧ payloadArrives t1 h.size p t2 ∧ s.crcUnit.crc16 p ≠ h.crc :=
  ⟨node [1, 2, 3, 0, 0x31, 0x61, 1, 2, 7], 64, .queue [1, 2, 7], .queue [], [1, 2, 3, 0, 0x31, 0x61], [1, 2, 7], header,
   by decide, by decide, ⟨by decide, by decide⟩, by decide, by decide, ⟨by decide, by decide⟩, by decide +kernel⟩

/-- From step 3 (a step that raises the error is in witness_StatusWriters). -/
theorem witness_RecvCrcMismatch_resumed :
    ∃ (s : State) (t : Transport) (p : List Byte), s.phase = .recv3 ∧ payloadArrives s.transport s.hdr.size p t ∧
      s.crcUnit.crc16 p ≠ s.hdr.crc :=
  ⟨{ node [1, 2, 7] with phase := .recv3, hdr := header }, .queue [], [1, 2, 7], by decide, ⟨by decide, by decide⟩,
   by decide +kernel⟩

theorem witness_RecvIgnoresAddressHandlerAndAllocator :
    ∃ s : State, s.phase ∈ [.recv1, .recv2, .recv3, .recv4] := ⟨{ node [] with phase := .recv4 }, by decide⟩

/-- The operation from rest, and a step that goes on with it under the size guard. -/
theorem witness_RecvFrame :
    (∃ s t : State, exec (.recv 64) s = .next t ∧ t.status ≠ s.status) ∧
    (∃ s t : State, step s = .next t ∧ s.phase = .recv3 ∧ s.cmdArg = 3 ∧ s.sizeGuard ∧ t.cbuf ≠ s.cbuf) :=
  ⟨⟨node [1, 2, 3], _, rfl, by decide⟩,
   ⟨{ node [1, 2] with phase := .recv3, cmdArg := 3, hdr := header }, _, rfl, by decide, by decide,
    ⟨by decide, by decide, by decide⟩, by decide⟩⟩

/-- The host's SEND and the handler's. -/
theorem witness_SendWritesOneFrame :
    (∃ (s : State) (p : List Byte) (t' : Transport), s.phase = Caller.host.restPhase ∧ s.status ≠ .notInitialized ∧
      s.src.readBytes 0 3 = some p ∧ sendTaken s.transport t') ∧
    (∃ (s : State) (p : List Byte) (t' : Transport), s.phase = Caller.handler.restPhase ∧
      s.status ≠ .notInitialized ∧ s.src.readBytes 0 3 = some p ∧ sendTaken s.transport t') :=
  ⟨⟨{ node [] with src := space [1, 2, 3] }, [1, 2, 3], .queue [], by decide, by decide, by decide,
    .queue [], .queue [], .queue [], by decide, by decide, by decide, by decide⟩,
   ⟨{ inDispatch with src := space [1, 2, 3] }, [1, 2, 3], .queue [], by decide, by decide, by decide,
    .queue [], .queue [], .queue [], by decide, by decide, by decide, by decide⟩⟩

/-- Each step that goes on, for the host and for the handler. -/
theorem witness_SendWritesOneFrame_resumed :
    ∀ c : Caller,
      (∃ (s : State) (t : Transport), s.phase = .send2 c ∧ s.transport.takeBeginTransmission = some t) ∧
      (∃ (s : State) (t : Transport), s.phase = .send3 c ∧ s.transport.takeWrite = some t ∧
        s.src.readBytes 0 (s.sendHdr c).size.toNat = some [1, 2, 3]) ∧
      (∃ (s : State) (t : Transport), s.phase = .send4 c ∧ s.transport.takeWrite = some t) ∧
      (∃ (s : State) (t : Transport), s.phase = .send5 c ∧ s.transport.takeEndTransmission = some t) :=
  fun c =>
    ⟨⟨{ node [] with phase := .send2 c }, .queue [], rfl, rfl⟩,
     ⟨{ node [] with phase := .send3 c, hdr := header, nestedHdr := header, src := space [1, 2, 3] }, .queue [], rfl, rfl,
      by cases c <;> decide⟩,
     ⟨{ node [] with phase := .send4 c }, .queue [], rfl, rfl⟩,
     ⟨{ node [] with phase := .send5 c }, .queue [], rfl, rfl⟩⟩

/-- From rest, from a dispatch, and a step that goes on with each. -/
theorem witness_SendFrame :
    (∃ s t : State, s.phase = Caller.host.restPhase ∧ exec (.send 2 3) s = .next t) ∧
    (∃ s t : State, s.phase = Caller.handler.restPhase ∧ exec (.send 2 3) s = .next t) ∧
    (∃ s t : State, step s = .next t ∧ s.phase = .send2 .host) ∧
    (∃ s t : State, step s = .next t ∧ s.phase = .send5 .handler) :=
  ⟨⟨{ node [] with src := space [1, 2, 3] }, _, by decide, rfl⟩,
   ⟨{ inDispatch with src := space [1, 2, 3] }, _, by decide, rfl⟩,
   ⟨{ node [] with phase := .send2 .host }, _, rfl, by decide⟩,
   ⟨{ inDispatch with phase := .send5 .handler }, _, rfl, by decide⟩⟩

theorem witness_SendThenReceive :
    ∃ (s r : State) (size capacity : U16) (p : List Byte) (t' : Transport) (more : List Byte)
      (line : List Byte → Transport),
      s.phase = .idle ∧ s.status ≠ .notInitialized ∧ s.src.readBytes 0 size.toNat = some p ∧
      sendTaken s.transport t' ∧ size.toNat ≤ 500 ∧ r.phase = .idle ∧ r.status ≠ .notInitialized ∧
      r.crcUnit = s.crcUnit ∧ size.toNat ≤ capacity.toNat ∧ (line = .queue ∨ line = .blocking) ∧
      r.transport = line (frame ++ more) :=
  ⟨{ node [] with localId := 1, src := space [1, 2, 3] }, node frame, 3, 3, [1, 2, 3], .queue [], [], .queue, by decide,
   by decide, by decide, ⟨.queue [], .queue [], .queue [], by decide, by decide, by decide, by decide⟩, by decide,
   by decide, by decide, by decide, by decide, .inl rfl, by decide⟩

/-- A node that sends, and one that hears it. -/
theorem witness_BusDeliversToEveryOtherNode :
    ∃ (b : Bus) (s t u : State), b.node 0 = some s ∧ step s = .next t ∧ b.node 1 = some u :=
  ⟨⟨.testXmodem, [{ node [] with cmds := [{ word := 0x60020003, space := space [1, 2, 3] }] }, node []]⟩, _, _, _, rfl,
   rfl, rfl⟩

theorem witness_ParseHeaderFields : ∃ b : List Byte, b.length ≠ 6 ∧ b.length = 5 := ⟨[1, 2, 3, 4, 5], by decide, by decide⟩

theorem witness_HeaderRoundTrip :
    ∃ (b : List Byte) (h : Header), b.length = 6 ∧ parseHeader b = some h :=
  ⟨[0x09, 0x02, 0x10, 0x27, 0x00, 0x00], _, by decide, rfl⟩

/-- A drain of 3 whose 3 answers are there, one of none, and one of 3 of which 2 are there. -/
theorem witness_DrainIssuesExactlyN :
    (∃ (s : State) (vs : List (Option Byte)) (t : Transport), drainAnswered s.transport 3 vs t) ∧
    (∃ (s : State) (vs : List (Option Byte)) (t : Transport), drainAnswered s.transport 0 vs t) ∧
    (∃ (s : State) (vs : List (Option Byte)) (t : Transport), s.transport.drain 3 = (vs, t) ∧ vs.length < 3) :=
  ⟨⟨node [1, 2], [some 1, some 2, none], .queue [], by decide, by decide⟩,
   ⟨node [1], [], .queue [1], by decide, by decide⟩,
   ⟨{ node [] with transport := .blocking [1, 2] }, [some 1, some 2], .blocking [], by decide, by decide⟩⟩

/-- A drain that stands at a read: one of whose 2 answers both are there, and one of whose 2 only one is. -/
theorem witness_DrainIssuesExactlyN_resumed :
    (∃ (s : State) (vs : List (Option Byte)) (t : Transport), s.drainLeft ≠ 0 ∧
      drainAnswered s.transport s.drainLeft vs t) ∧
    (∃ (s : State) (vs : List (Option Byte)) (t : Transport), s.transport.drain s.drainLeft.toNat = (vs, t) ∧
      vs.length < s.drainLeft.toNat ∧ vs = [some 1]) :=
  ⟨⟨{ node [1] with drainLeft := 2 }, [some 1, none], .queue [], by decide, by decide, by decide⟩,
   ⟨{ node [] with transport := .blocking [1], drainLeft := 2 }, [some 1], .blocking [], by decide, by decide, rfl⟩⟩

/-- A transport with answers to `T.readBytes` alone. -/
def answering (l : List (U16 × List Byte)) : Transport :=
  .answers { begins := 0, avail := [], readBytes := l, reads := [], txBegins := 0, writes := 0, txEnds := 0 }

/-- A count that is too large, bytes of another number than the count, and a `SRC` that is too short. -/
theorem witness_BrokenAssumptionsAreRefused :
    (∃ (s : State) (k : U16) (d : List Byte) (t : Transport), s.transport.readBytes 6 = some (k, d, t) ∧ 6 < k) ∧
    (∃ (s : State) (k : U16) (d : List Byte) (t : Transport), s.transport.readBytes 6 = some (k, d, t) ∧
      d.length ≠ k.toNat) ∧
    (∃ s : State, s.phase = Caller.host.restPhase ∧ s.status ≠ .notInitialized ∧ s.src.readBytes 0 3 = none) :=
  ⟨⟨{ node [] with transport := answering [(7, [1, 2, 3, 4, 5, 6, 7])] }, 7, [1, 2, 3, 4, 5, 6, 7], _, rfl, by decide⟩,
   ⟨{ node [] with transport := answering [(6, [1])] }, 6, [1], _, rfl, by decide⟩,
   ⟨{ node [] with src := space [1, 2] }, by decide, by decide, by decide⟩⟩

theorem witness_LifetimeRegistersAreMonotone :
    ∃ s t : State, step s = .next t ∧ s.handlerValid = true ∧ s.status ≠ .notInitialized :=
  ⟨{ node frame with cmds := [{ word := 0x40000000, space := [] }] }, _, rfl, by decide, by decide⟩

/-- One step for each writer of the status, and for the two errors that only one operation raises (also for
PollAllocationFailure and RecvCrcMismatch). -/
theorem witness_StatusWriters :
    (∃ s t : State, step s = .next t ∧ t.status ≠ s.status ∧ s.runsBegin) ∧
    (∃ s t : State, step s = .next t ∧ t.status ≠ s.status ∧ s.runsPoll) ∧
    (∃ s t : State, step s = .next t ∧ t.status ≠ s.status ∧ s.runsRecv) ∧
    (∃ s t : State, step s = .next t ∧ t.status ≠ s.status ∧ t.status = .allocationFailure) ∧
    (∃ s t : State, step s = .next t ∧ t.status ≠ s.status ∧ t.status = .crcError) :=
  ⟨⟨{ node [] with phase := .begin1, status := .crcError }, _, rfl, by decide, .inl rfl⟩,
   ⟨{ node [1] with phase := .poll1 }, _, rfl, by decide, .inl (by decide)⟩,
   ⟨{ node [1] with phase := .recv1 }, _, rfl, by decide, .inl (by decide)⟩,
   ⟨{ node [] with phase := .poll3, allocator := .answers [.fail] }, _, rfl, by decide, by decide⟩,
   ⟨{ node [] with phase := .recv4, hdr := { header with size := 0 } }, { node [] with
        phase := .idle, hdr := { header with size := 0 }, status := .crcError,
        responses := [(.host, .recv 0 { header with size := 0 })] }, rfl, by decide, by decide⟩⟩

theorem witness_DispatchWritesNoStatus :
    ∃ s t : State, s.phase.inDispatch = true ∧ step s = .next t :=
  ⟨{ inDispatch with handler := [.ret] }, _, by decide, rfl⟩

theorem witness_RecordsOnlyGrow :
    ∃ s t : State, step s = .next t :=
  ⟨{ node frame with cmds := [{ word := 0x40000000, space := [] }] }, _, rfl⟩

/-- A step that ends at rest, one that answers the handler, one that reaches the dispatch, and one that waits. -/
theorem witness_OneResponsePerOperation :
    (∃ s t : State, step s = .next t ∧ t.phase = .idle) ∧
    (∃ s t : State, step s = .next t ∧ t.phase = .dispatch ∧ s.phase.inDispatch = true) ∧
    (∃ s t : State, step s = .next t ∧ t.phase = .dispatch ∧ s.phase.inDispatch = false) ∧
    (∃ s t : State, step s = .next t ∧ t.phase ≠ .idle ∧ t.phase ≠ .dispatch) :=
  ⟨⟨{ inDispatch with handler := [.ret] }, _, rfl, by decide⟩,
   ⟨{ inDispatch with handler := [.command { word := 0x10000000, space := [] }] }, _, rfl, by decide, by decide⟩,
   ⟨{ node frame with cmds := [{ word := 0x40000000, space := [] }] }, _, rfl, by decide, by decide⟩,
   ⟨{ node [] with transport := .blocking [1], phase := .poll0 }, _, rfl, by decide, by decide⟩⟩

theorem witness_StepKeepsBuffersCanonical : ∃ s t : State, s.canonical ∧ step s = .next t :=
  ⟨{ inDispatch with handler := [.ret] }, _,
   ⟨by decide, by decide, by decide, by decide, fun c h => by simp at h⟩, rfl⟩

theorem witness_StepKeepsBufferDiscipline : ∃ s t : State, s.bufferDiscipline ∧ s.bufh = some 0 ∧ step s = .next t :=
  ⟨{ inDispatch with handler := [.ret] }, _, ⟨by decide, by decide, by decide⟩, by decide, rfl⟩

theorem witness_StepKeepsBracketDiscipline :
    ∃ s t : State, s.bracketDiscipline ∧ s.phase.inBracket = true ∧ step s = .next t :=
  ⟨{ node [] with phase := .send2 .host, trace := [.request .tBeginTransmission] }, _,
   by unfold State.bracketDiscipline; decide, by decide, rfl⟩

theorem witness_StepKeepsDispatchDiscipline :
    ∃ s t : State, s.dispatchDiscipline ∧ s.phase.inDispatch = true ∧ step s = .next t :=
  ⟨{ inDispatch with handler := [.ret] }, _, ⟨by decide, by decide⟩, by decide, rfl⟩

theorem witness_StepKeepsSizeAndGateGuards :
    ∃ s t : State, s.sizeGuard ∧ s.gateGuard ∧ s.phase.holdsBuffer = true ∧ step s = .next t :=
  ⟨{ inDispatch with handler := [.ret] }, _, ⟨by decide, by decide, by decide⟩,
   by unfold State.gateGuard; decide, by decide, rfl⟩

/-- An allocator's answer under a transport wait, a transport's under the allocator's and the handler's, and the answer
on another channel of the same transport. -/
theorem witness_OnlyTheCollaboratorEndsAWait :
    (({ node [] with phase := .poll1, transport := .blocking [] } : State).waitingOn = some .tReadBytes ∧
      (Move.answersAcquire .fail).mayEnd .tReadBytes = false) ∧
    (({ node [] with phase := .poll3, allocator := .answers [] } : State).waitingOn = some .aAcquire ∧
      (Move.lineBytes [1]).mayEnd .aAcquire = false) ∧
    (inDispatch.waitingOn = some .hHandle ∧ (Move.answersRead none).mayEnd .hHandle = false) ∧
    (({ node [] with phase := .poll1, transport := answering [] } : State).waitingOn = some .tReadBytes ∧
      (Move.answersRead none).mayEnd .tReadBytes = false) := by decide

/-- A wait on each channel, the state at rest, and a step that goes on. -/
theorem witness_WhenTheEngineWaitsRestsOrStops :
    (({ node [] with phase := .begin1, transport := answering [] } : State).transport.takeBegin = none) ∧
    (({ node [] with phase := .poll0, transport := answering [] } : State).transport.available = none) ∧
    (({ node [] with phase := .poll1, transport := answering [] } : State).transport.readBytes 6 = none) ∧
    (({ node [] with phase := .recv3, transport := .blocking [1], hdr := header } : State).transport.readBytes 3 = none) ∧
    (({ node [] with phase := .poll2, transport := .blocking [], drainLeft := 1 } : State).transport.read = none) ∧
    (({ node [] with phase := .send2 .host, transport := answering [] } : State).transport.takeBeginTransmission = none) ∧
    (({ node [] with phase := .send3 .host, transport := answering [] } : State).transport.takeWrite = none) ∧
    (({ node [] with phase := .send5 .handler, transport := answering [] } : State).transport.takeEndTransmission = none) ∧
    (({ node [] with phase := .poll3, allocator := .answers [] } : State).allocator.acquire = none) ∧
    (inDispatch.phase = .dispatch ∧ inDispatch.handler = []) ∧ ((node []).phase = .idle ∧ (node []).cmds = []) ∧
    (∃ t, step { node [] with phase := .poll1 } = .next t) :=
  ⟨rfl, rfl, rfl, rfl, rfl, rfl, rfl, rfl, rfl, ⟨rfl, rfl⟩, ⟨rfl, rfl⟩, _, rfl⟩

theorem witness_LifecycleFrame :
    (∃ s t : State, exec .begin s = .next t) ∧ (∃ s t : State, exec .haserr s = .next t) ∧
    (∃ s t : State, exec .geterr s = .next t) ∧ (∃ s t : State, exec (.seth 7) s = .next t) ∧
    (∃ s t : State, exec (.recvl 0) s = .next t) ∧ (∃ s t : State, s.phase = .begin1 ∧ step s = .next t) :=
  ⟨⟨node [], _, rfl⟩, ⟨node [], _, rfl⟩, ⟨node [], _, rfl⟩, ⟨node [], _, rfl⟩, ⟨node [], _, rfl⟩,
   ⟨{ node [] with phase := .begin1 }, _, rfl, rfl⟩⟩

end Sys2Proof.Tests
end

/-! SUPPORT and proofs of the family 00_scope. One relation says what every step keeps: the records, the constants of a
node, the form of its buffers. It is shown once for each operation, by the cases of `Laws/Operations.lean`. -/

namespace Sys2Proof.Machine

/-! ## What every step keeps -/

/-- `t` can follow `s`, whatever operation runs: the records of `s` begin those of `t` (00_scope R13, 20_memory R41),
what no operation writes is the same (00_scope R9, 10_state R22), and buffers in canonical form stay so (20_memory R42).
Where an update leaves the buffers alone and only appends to records, `{}` proves it. -/
structure Advances (s t : State) : Prop where
  trace : s.trace <+: t.trace := by simp
  tx : s.tx <+: t.tx := by simp
  responses : s.responses <+: t.responses := by simp
  rejected : s.rejected <+: t.rejected := by simp
  localId : t.localId = s.localId := by simp
  crcUnit : t.crcUnit = s.crcUnit := by simp
  freeSource : t.freeSource = s.freeSource := by simp
  canonical : s.canonical → t.canonical := by simp [State.canonical]

namespace Advances

theorem refl (s : State) : Advances s s := {}

theorem trans {s t u : State} (h : Advances s t) (k : Advances t u) : Advances s u where
  trace := h.trace.trans k.trace
  tx := h.tx.trans k.tx
  responses := h.responses.trans k.responses
  rejected := h.rejected.trans k.rejected
  localId := k.localId.trans h.localId
  crcUnit := k.crcUnit.trans h.crcUnit
  freeSource := k.freeSource.trans h.freeSource
  canonical hs := k.canonical (h.canonical hs)

/-- An update followed by the rest of an operation. -/
theorem andThen {s t : State} {r : Result} (h : Advances s t) (hr : AllNext (Advances t) r) :
    AllNext (Advances s) r :=
  hr.mono fun _ => h.trans

/-! ### The shared updates -/

theorem request (s : State) (p : Phase) (r : Request) : Advances s (s.request p r) := {}

theorem finish (s : State) (c : Caller) (r : Response) : Advances s (s.finish c r) := {}

theorem fail (s : State) (st : Status) (r : Response) : Advances s (s.fail st r) := {}

theorem reject (s : State) (c : Caller) (why : Rejection) (k : ResponseKind) : Advances s (s.reject c why k) where
  responses := by cases k <;> exact List.prefix_append _ _

theorem releaseBuffer (s : State) : Advances s s.releaseBuffer := by
  cases hb : s.bufh with
  | none => rw [State.releaseBuffer_none s hb]; exact refl s
  | some h =>
    rw [State.releaseBuffer_held s h hb]
    exact { canonical := fun ⟨_, hrest⟩ => ⟨Memory.wf_nil, hrest⟩ }

/-- A granted buffer is empty (20_memory R50). -/
theorem takeBuffer (s : State) (a : Allocator) (es : List Event) (h : Handle) :
    Advances s { s with allocator := a, trace := s.trace ++ es, bufh := some h, pbuf := [] } where
  canonical := fun ⟨_, hrest⟩ => ⟨Memory.wf_nil, hrest⟩

theorem fillPbuf (s : State) (t : Transport) (es : List Event) (d : List Byte) :
    Advances s { s with transport := t, trace := s.trace ++ es, pbuf := s.pbuf.writeBytes 0 d } where
  canonical := fun ⟨hp, hrest⟩ => ⟨Memory.wf_writeBytes d _ 0 hp, hrest⟩

theorem fillCbuf (s : State) (t : Transport) (es : List Event) (d : List Byte) :
    Advances s { s with transport := t, trace := s.trace ++ es, cbuf := s.cbuf.writeBytes 0 d } where
  canonical := fun ⟨hp, hc, hrest⟩ => ⟨hp, Memory.wf_writeBytes d _ 0 hc, hrest⟩

/-- The handler's next move is taken off its list. -/
theorem takeMove {s : State} {m : HandlerMove} {rest : List HandlerMove} (h : s.handler = m :: rest) :
    Advances s { s with handler := rest } where
  canonical := fun ⟨hp, hc, hs, hcmds, hmoves⟩ =>
    ⟨hp, hc, hs, hcmds, fun c hmem => hmoves c (h ▸ .tail m hmem)⟩

/-- The host's next command is taken off its list. -/
theorem takeCommand {s : State} {c : Command} {rest : List Command} (h : s.cmds = c :: rest) :
    Advances s { s with cmds := rest } where
  canonical := fun ⟨hp, hc, hs, hcmds, hmoves⟩ =>
    ⟨hp, hc, hs, fun d hmem => hcmds d (h ▸ .tail c hmem), hmoves⟩

/-- The byte space of a command becomes a buffer in the form it was handed over in. -/
theorem handOver {s t : State} (h : Advances s t) (i : Instr) {m : Memory} (hm : s.canonical → m.wf = true) :
    Advances s (t.handOver i m) where
  trace := by simpa using h.trace
  tx := by simpa using h.tx
  responses := by simpa using h.responses
  rejected := by simpa using h.rejected
  localId := by simpa using h.localId
  crcUnit := by simpa using h.crcUnit
  freeSource := by simpa using h.freeSource
  canonical hs := by
    obtain ⟨hp, hc, hsrc, hqueues⟩ := h.canonical hs
    cases i with
    | recv n => exact ⟨hp, hm hs, hsrc, hqueues⟩
    | send dst n => exact ⟨hp, hc, hm hs, hqueues⟩
    | _ => exact ⟨hp, hc, hsrc, hqueues⟩

end Advances

/-! ### The operations -/

theorem advances_beginAwait (s : State) : AllNext (Advances s) (beginAwait s) :=
  allNext_beginAwait (.refl s) fun _ _ => {}

theorem advances_pollStep6 (s : State) : AllNext (Advances s) (pollStep6 s) :=
  (Advances.releaseBuffer s).trans (.finish ..)

theorem advances_awaitHandler (s : State) : AllNext (Advances s) (awaitHandler s) :=
  allNext_awaitHandler (.refl s) fun _ hret =>
    ((Advances.takeMove hret).trans {}).andThen (advances_pollStep6 _)

theorem advances_pollStep5 (s : State) : AllNext (Advances s) (pollStep5 s) :=
  allNext_pollStep5
    (fun _ _ _ _ => (Advances.request ..).andThen (advances_awaitHandler _))
    (fun _ => advances_pollStep6 s)

theorem advances_pollStep4 (s : State) : AllNext (Advances s) (pollStep4 s) :=
  allNext_pollStep4 (.refl s)
    (fun _ d _ _ _ _ => ((Advances.fillPbuf s _ _ d).trans (.releaseBuffer _)).trans (.fail ..))
    (fun d _ _ _ => (Advances.fillPbuf s _ _ d).andThen (advances_pollStep5 _))

theorem advances_pollStep3 (s : State) : AllNext (Advances s) (pollStep3 s) :=
  allNext_pollStep3 (.refl s)
    (fun _ _ => {})
    (fun h a _ => ((Advances.takeBuffer s a _ h).trans (.request ..)).andThen (advances_pollStep4 _))

theorem advances_drain {s : State} {fin : State → State} (hfin : ∀ t, Advances t (fin t)) :
    AllNext (Advances s) (s.awaitDrain fin) :=
  allNext_awaitDrain (fun _ _ _ _ => {}) fun _ _ _ _ => Advances.trans {} (hfin _)

theorem advances_pollDrain (s : State) : AllNext (Advances s) (pollDrain s) :=
  advances_drain fun _ => .finish ..

theorem advances_pollStep2 (s : State) : AllNext (Advances s) (pollStep2 s) :=
  allNext_pollStep2
    (fun _ => Advances.andThen {} (advances_pollDrain _))
    (fun _ => (Advances.request ..).andThen (advances_pollStep3 _))

theorem advances_pollStep1 (s : State) : AllNext (Advances s) (pollStep1 s) :=
  allNext_pollStep1 (.refl s)
    (fun _ _ _ _ _ _ => {})
    (fun _ _ _ _ _ => Advances.andThen {} (advances_pollStep2 _))

theorem advances_pollStep0 (s : State) : AllNext (Advances s) (pollStep0 s) :=
  allNext_pollStep0 (.refl s)
    (fun _ _ => {})
    (fun _ _ => Advances.andThen {} (advances_pollStep1 _))

theorem advances_recvStep4 (s : State) : AllNext (Advances s) (recvStep4 s) :=
  allNext_recvStep4 (fun _ _ _ => .finish ..) (fun _ _ _ => .fail ..)

theorem advances_recvStep3 (s : State) : AllNext (Advances s) (recvStep3 s) :=
  allNext_recvStep3 (.refl s)
    (fun _ d _ _ _ _ => (Advances.fillCbuf s _ _ d).trans (.fail ..))
    (fun d _ _ _ => (Advances.fillCbuf s _ _ d).andThen (advances_recvStep4 _))

theorem advances_recvDrain (s : State) : AllNext (Advances s) (recvDrain s) :=
  advances_drain fun _ => .finish ..

theorem advances_recvStep2 (s : State) : AllNext (Advances s) (recvStep2 s) :=
  allNext_recvStep2
    (fun _ => Advances.andThen {} (advances_recvDrain _))
    (fun _ _ => (Advances.request ..).andThen (advances_recvStep3 _))

theorem advances_recvStep1 (s : State) : AllNext (Advances s) (recvStep1 s) :=
  allNext_recvStep1 (.refl s)
    (fun _ _ _ _ _ _ => {})
    (fun _ _ _ _ _ => Advances.andThen {} (advances_recvStep2 _))

theorem advances_sendStep5 (c : Caller) (s : State) : AllNext (Advances s) (sendStep5 c s) :=
  allNext_sendStep5 (.refl s) fun _ _ => {}

theorem advances_sendStep4 (c : Caller) (s : State) : AllNext (Advances s) (sendStep4 c s) :=
  allNext_sendStep4 (.refl s) fun _ _ => Advances.andThen {} (advances_sendStep5 c _)

theorem advances_sendStep3 (c : Caller) (s : State) : AllNext (Advances s) (sendStep3 c s) :=
  allNext_sendStep3 (.refl s) fun _ _ _ _ => Advances.andThen {} (advances_sendStep4 c _)

theorem advances_sendStep2 (c : Caller) (s : State) : AllNext (Advances s) (sendStep2 c s) :=
  allNext_sendStep2 (.refl s) fun _ _ => Advances.andThen {} (advances_sendStep3 c _)

theorem advances_sendStep1 (c : Caller) (s : State) : AllNext (Advances s) (sendStep1 c s) :=
  allNext_sendStep1 fun _ _ => Advances.andThen {} (advances_sendStep2 c _)

/-! ### Commands and steps -/

theorem advances_exec (i : Instr) (s : State) : AllNext (Advances s) (exec i s) :=
  match i with
  | .begin => allNext_execBegin (fun _ => .reject ..) fun _ => (Advances.request ..).andThen (advances_beginAwait _)
  | .haserr => allNext_accept fun _ _ => {}
  | .geterr => allNext_accept fun _ _ => {}
  | .seth _ => allNext_accept fun _ _ => {}
  | .poll =>
    allNext_execPoll (fun _ => .reject ..) (fun _ _ => .reject ..)
      fun _ _ => (Advances.request ..).andThen (advances_pollStep0 _)
  | .recv _ =>
    allNext_execRecv (fun _ => .reject ..) (fun _ _ => .reject ..)
      fun _ _ => Advances.andThen {} (advances_recvStep1 _)
  | .send _ _ =>
    allNext_execSend (fun _ _ _ => .reject ..)
      fun c _ _ => Advances.andThen {} (advances_sendStep1 c _)
  | .recvl _ => allNext_accept fun _ _ => .reject ..

/-- A command taken off its list runs; its byte space is one of those the canonical form of `s` speaks of. -/
theorem advances_runCommand {s t : State} (c : Command) (h : Advances s t) (hc : s.canonical → c.space.wf = true) :
    AllNext (Advances s) (runCommand c t) :=
  allNext_runCommand
    (fun i _ => (h.handOver i hc).andThen (advances_exec i _))
    (fun _ _ _ _ => h.trans (.reject ..))

theorem advances_resume (s : State) : AllNext (Advances s) (resume s) := by
  unfold resume
  cases s.phase with
  | idle => trivial
  | begin1 => exact advances_beginAwait s
  | poll0 => exact advances_pollStep0 s
  | poll1 => exact advances_pollStep1 s
  | poll2 => exact advances_pollDrain s
  | poll3 => exact advances_pollStep3 s
  | poll4 => exact advances_pollStep4 s
  | poll5 => exact advances_pollStep5 s
  | dispatch => exact advances_awaitHandler s
  | poll6 => exact advances_pollStep6 s
  | recv1 => exact advances_recvStep1 s
  | recv2 => exact advances_recvDrain s
  | recv3 => exact advances_recvStep3 s
  | recv4 => exact advances_recvStep4 s
  | send1 c => exact advances_sendStep1 c s
  | send2 c => exact advances_sendStep2 c s
  | send3 c => exact advances_sendStep3 c s
  | send4 c => exact advances_sendStep4 c s
  | send5 c => exact advances_sendStep5 c s

/-- Every step advances the state. -/
theorem advances_step (s : State) : AllNext (Advances s) (step s) :=
  allNext_step
    (fun c _ _ hcmds => advances_runCommand c (.takeCommand hcmds)
      fun ⟨_, _, _, hspace, _⟩ => hspace c (by simp [hcmds]))
    (fun c _ _ hmoves => advances_runCommand c (.takeMove hmoves)
      fun ⟨_, _, _, _, hspace⟩ => hspace c (by simp [hmoves]))
    (fun _ => advances_resume s)

/-- Settles O51: one of the things every step keeps. -/
theorem stepKeepsBuffersCanonical : Obligations.StepKeepsBuffersCanonical :=
  fun s _ hs hstep => ((advances_step s).of_eq hstep).canonical hs

/-- Settles O49: the records of the state before a step begin those of the state after. -/
theorem recordsOnlyGrow : Obligations.RecordsOnlyGrow := fun s _ hstep =>
  have h := (advances_step s).of_eq hstep
  ⟨h.trace, h.tx, h.responses, h.rejected⟩

/-! ## The reference bus -/

/-- Every node after a step of node `i`; the list starts with the node numbered `j`. -/
theorem busNodesAfter_getElem? (i : Nat) (t : State) (d : List Byte) (j k : Nat) (nodes : List State) :
    (busNodesAfter i t d j nodes)[k]? = nodes[k]?.map fun u => if j + k = i then t else u.hear d := by
  induction nodes generalizing j k with
  | nil => simp [busNodesAfter]
  | cons u rest ih =>
    cases k with
    | zero => simp [busNodesAfter]
    | succ k => simpa [busNodesAfter, Nat.add_assoc, Nat.add_comm 1 k] using ih (j + 1) k

@[simp] theorem busNodesAfter_length (i : Nat) (t : State) (d : List Byte) (j : Nat) (nodes : List State) :
    (busNodesAfter i t d j nodes).length = nodes.length := by
  induction nodes generalizing j with
  | nil => rfl
  | cons u rest ih => simp [busNodesAfter, ih]

theorem Bus.node_eq_some {b : Bus} {i : Nat} {s : State} :
    b.node i = some s ↔ ∃ u, b.nodes[i]? = some u ∧ u.onBus b.crcUnit i = s :=
  Option.map_eq_some_iff

theorem Bus.crcUnit_of_node {b : Bus} {i : Nat} {s : State} (h : b.node i = some s) : s.crcUnit = b.crcUnit := by
  obtain ⟨_, -, rfl⟩ := Bus.node_eq_some.1 h
  rfl

theorem Bus.freeSource_of_node {b : Bus} {i : Nat} {s : State} (h : b.node i = some s) : s.freeSource = i := by
  obtain ⟨_, -, rfl⟩ := Bus.node_eq_some.1 h
  rfl

theorem Bus.stepNode_next {b : Bus} {i : Nat} {s t : State} (hs : b.node i = some s) (hstep : step s = .next t) :
    b.stepNode i = some (.next { b with nodes := busNodesAfter i t (t.tx.drop s.tx.length) 0 b.nodes }) := by
  simp [Bus.stepNode, hs, hstep]

/-- A node's next state stands on the bus as it is: no step writes its `crc16` or its source number. -/
theorem Bus.onBus_step {b : Bus} {i : Nat} {s t : State} (hs : b.node i = some s) (hstep : step s = .next t) :
    t.onBus b.crcUnit i = t := by
  have h := (advances_step s).of_eq hstep
  rw [← Bus.crcUnit_of_node hs, ← h.crcUnit, ← Bus.freeSource_of_node hs, ← h.freeSource]
  rfl

/-- Settles O38: the stepping node's state is the step's own, since a step writes neither field that the bus gives; the
others hear the bytes added. -/
theorem busDeliversToEveryOtherNode : Obligations.BusDeliversToEveryOtherNode := by
  intro b i s t hs hstep
  have hself : t.onBus b.crcUnit i = t := Bus.onBus_step hs hstep
  refine ⟨_, Bus.stepNode_next hs hstep, by simp, ?self, ?others, ?crc⟩
  case self =>
    obtain ⟨u, hu, -⟩ := Bus.node_eq_some.1 hs
    exact Bus.node_eq_some.2 ⟨t, by simp [busNodesAfter_getElem?, hu], hself⟩
  case others =>
    intro j v hj hv
    obtain ⟨u, hu, rfl⟩ := Bus.node_eq_some.1 hv
    exact Bus.node_eq_some.2 ⟨u.hear _, by simp [busNodesAfter_getElem?, hu, hj], rfl⟩
  case crc =>
    intro j u v hu hv
    exact ⟨(Bus.crcUnit_of_node hu).trans (Bus.crcUnit_of_node hs).symm,
      (Bus.crcUnit_of_node hv).trans (Bus.crcUnit_of_node hs).symm⟩

end Sys2Proof.Machine

/-! SUPPORT and proofs of the family 10_state: what each operation's steps do to the registers of the state. -/

namespace Sys2Proof.Machine

/-! ## The payload buffer -/

/-- Only the release among the requests, and only a granted buffer among the answers, moves the discipline. -/
@[simp] theorem heldAfter_request {r : Request} (hr : ∀ h, r ≠ .aRelease h) (b : Option (Option Handle)) :
    heldAfter b (.request r) = b := by
  unfold heldAfter
  split <;> simp_all

@[simp] theorem heldAfter_answer {a : Answer} (ha : ∀ h, a ≠ .aAcquire (.ok h)) (b : Option (Option Handle)) :
    heldAfter b (.answer a) = b := by
  unfold heldAfter
  split <;> simp_all

@[simp] theorem foldl_heldAfter_drainEvents (left : Nat) (vs : List (Option Byte)) (b : Option (Option Handle)) :
    (drainEvents left vs).foldl heldAfter b = b :=
  foldl_onlyReads heldAfter b _ (drainEvents_onlyReads left vs) (by simp) (by simp)

/-- A SEND holds a buffer exactly when the place it returns to does. -/
@[simp] theorem holdsBuffer_send1 (c : Caller) : (Phase.send1 c).holdsBuffer = c.restPhase.holdsBuffer := by
  cases c <;> rfl
@[simp] theorem holdsBuffer_send2 (c : Caller) : (Phase.send2 c).holdsBuffer = c.restPhase.holdsBuffer := by
  cases c <;> rfl
@[simp] theorem holdsBuffer_send3 (c : Caller) : (Phase.send3 c).holdsBuffer = c.restPhase.holdsBuffer := by
  cases c <;> rfl
@[simp] theorem holdsBuffer_send4 (c : Caller) : (Phase.send4 c).holdsBuffer = c.restPhase.holdsBuffer := by
  cases c <;> rfl
@[simp] theorem holdsBuffer_send5 (c : Caller) : (Phase.send5 c).holdsBuffer = c.restPhase.holdsBuffer := by
  cases c <;> rfl

namespace State.bufferDiscipline

/-- An update that neither takes nor releases a buffer, and stays on the same side of the rule, keeps the discipline. -/
theorem keep {s t : State} (hs : s.bufferDiscipline) (holds : t.phase.holdsBuffer = s.phase.holdsBuffer)
    (same : t.trace.foldl heldAfter (some none) = s.trace.foldl heldAfter (some none) ∧ t.bufh = s.bufh ∧
      t.pbuf = s.pbuf) : t.bufferDiscipline := by
  obtain ⟨trace, bufh, pbuf⟩ := same
  rw [State.bufferDiscipline, trace, bufh, pbuf, holds]
  exact hs

theorem bufh_eq_none {s : State} (hs : s.bufferDiscipline) (hp : s.phase.holdsBuffer = false) : s.bufh = none := by
  obtain ⟨-, hheld, -⟩ := hs
  simpa [hp] using hheld

theorem exists_bufh {s : State} (hs : s.bufferDiscipline) (hp : s.phase.holdsBuffer = true) :
    ∃ h, s.bufh = some h := by
  obtain ⟨-, hheld, -⟩ := hs
  exact Option.isSome_iff_exists.1 (hheld.trans hp)

/-- A granted buffer, taken empty while none is held, is held from there on. -/
theorem take {s : State} (hs : s.bufferDiscipline) (hp : s.phase.holdsBuffer = false) (a : Allocator) (h : Handle)
    (n : U16) :
    (State.request { s with allocator := a, trace := s.trace ++ [.answer (.aAcquire (.ok h))], bufh := some h,
                            pbuf := [] } .poll4 (.tReadBytes n)).bufferDiscipline := by
  have hnone := hs.bufh_eq_none hp
  obtain ⟨htrace, -, -⟩ := hs
  exact ⟨by simp [htrace, hnone, heldAfter], rfl, fun _ => rfl⟩

/-- Bytes go into a buffer that is held. -/
theorem fill {s : State} (hs : s.bufferDiscipline) (hp : s.phase.holdsBuffer = true) (t : Transport) (k : U16)
    (d : List Byte) :
    State.bufferDiscipline { s with transport := t, trace := s.trace ++ [.answer (.tReadBytes k d)],
                                    pbuf := s.pbuf.writeBytes 0 d } := by
  obtain ⟨h, hb⟩ := hs.exists_bufh hp
  obtain ⟨htrace, hheld, -⟩ := hs
  exact ⟨by simpa using htrace, hheld, by simp [hb]⟩

/-- After the release, and with the operation of the host ended, no buffer is held. -/
theorem release {s : State} (hs : s.bufferDiscipline) :
    State.bufferDiscipline { s.releaseBuffer with phase := .idle } := by
  obtain ⟨htrace, -, hempty⟩ := hs
  cases hb : s.bufh with
  | none =>
    rw [State.releaseBuffer_none s hb]
    exact ⟨htrace, by simp [hb, Phase.holdsBuffer], hempty⟩
  | some h =>
    rw [State.releaseBuffer_held s h hb]
    exact ⟨by simp [htrace, hb, heldAfter], rfl, fun _ => rfl⟩

end State.bufferDiscipline

/-! ### The operations -/

theorem buffer_beginAwait {s : State} (hs : s.bufferDiscipline) (hp : s.phase.holdsBuffer = false) :
    AllNext State.bufferDiscipline (beginAwait s) :=
  allNext_beginAwait hs fun _ _ => hs.keep hp.symm (by simp)

theorem buffer_pollStep6 {s : State} (hs : s.bufferDiscipline) : AllNext State.bufferDiscipline (pollStep6 s) :=
  hs.release.keep rfl (by simp)

theorem buffer_awaitHandler {s : State} (hs : s.bufferDiscipline) : AllNext State.bufferDiscipline (awaitHandler s) :=
  allNext_awaitHandler hs fun _ _ => buffer_pollStep6 (hs.keep rfl (by simp))

theorem buffer_pollStep5 {s : State} (hs : s.bufferDiscipline) (hp : s.phase.holdsBuffer = true) :
    AllNext State.bufferDiscipline (pollStep5 s) :=
  allNext_pollStep5 (fun _ _ _ _ => buffer_awaitHandler (hs.keep hp.symm (by simp))) (fun _ => buffer_pollStep6 hs)

theorem buffer_pollStep4 {s : State} (hs : s.bufferDiscipline) (hp : s.phase.holdsBuffer = true) :
    AllNext State.bufferDiscipline (pollStep4 s) :=
  allNext_pollStep4 hs
    (fun k d t _ _ _ => (hs.fill hp t k d).release.keep rfl (by simp))
    (fun d t _ _ => buffer_pollStep5 (hs.fill hp t _ d) hp)

theorem buffer_pollStep3 {s : State} (hs : s.bufferDiscipline) (hp : s.phase.holdsBuffer = false) :
    AllNext State.bufferDiscipline (pollStep3 s) :=
  allNext_pollStep3 hs
    (fun _ _ => hs.keep hp.symm (by simp))
    (fun h a _ => buffer_pollStep4 (hs.take hp a h _) rfl)

theorem buffer_drain {s : State} {fin : State → State} (hs : s.bufferDiscipline)
    (hfin : ∀ t : State, t.bufferDiscipline → t.phase = s.phase → (fin t).bufferDiscipline) :
    AllNext State.bufferDiscipline (s.awaitDrain fin) :=
  allNext_awaitDrain (fun _ _ _ _ => hs.keep rfl (by simp)) fun _ _ _ _ =>
    hfin _ (hs.keep rfl (by simp)) rfl

theorem buffer_pollDrain {s : State} (hs : s.bufferDiscipline) (hp : s.phase.holdsBuffer = false) :
    AllNext State.bufferDiscipline (pollDrain s) :=
  buffer_drain hs fun _ ht hphase => ht.keep (by rw [hphase, hp]; rfl) (by simp)

theorem buffer_beginDrain {s : State} (hs : s.bufferDiscipline) {p : Phase} (n : U16)
    (hp : p.holdsBuffer = s.phase.holdsBuffer) : (s.beginDrain p n).bufferDiscipline :=
  hs.keep hp ⟨by rw [State.beginDrain_trace]; split <;> simp, rfl, rfl⟩

theorem buffer_pollStep2 {s : State} (hs : s.bufferDiscipline) (hp : s.phase.holdsBuffer = false) :
    AllNext State.bufferDiscipline (pollStep2 s) :=
  allNext_pollStep2
    (fun _ => buffer_pollDrain (buffer_beginDrain (hs.keep rfl (by simp)) _ hp.symm) rfl)
    (fun _ => buffer_pollStep3 (hs.keep hp.symm (by simp)) rfl)

theorem buffer_pollStep1 {s : State} (hs : s.bufferDiscipline) (hp : s.phase.holdsBuffer = false) :
    AllNext State.bufferDiscipline (pollStep1 s) :=
  allNext_pollStep1 hs
    (fun _ _ _ _ _ _ => hs.keep hp.symm (by simp))
    (fun _ _ _ _ _ => buffer_pollStep2 (hs.keep rfl (by simp)) hp)

theorem buffer_pollStep0 {s : State} (hs : s.bufferDiscipline) (hp : s.phase.holdsBuffer = false) :
    AllNext State.bufferDiscipline (pollStep0 s) :=
  allNext_pollStep0 hs
    (fun _ _ => hs.keep hp.symm (by simp))
    (fun _ _ => buffer_pollStep1 (hs.keep hp.symm (by simp)) rfl)

theorem buffer_recvStep4 {s : State} (hs : s.bufferDiscipline) (hp : s.phase.holdsBuffer = false) :
    AllNext State.bufferDiscipline (recvStep4 s) :=
  allNext_recvStep4 (fun _ _ _ => hs.keep hp.symm (by simp)) (fun _ _ _ => hs.keep hp.symm (by simp))

theorem buffer_recvStep3 {s : State} (hs : s.bufferDiscipline) (hp : s.phase.holdsBuffer = false) :
    AllNext State.bufferDiscipline (recvStep3 s) :=
  allNext_recvStep3 hs
    (fun _ _ _ _ _ _ => hs.keep hp.symm (by simp))
    (fun _ _ _ _ => buffer_recvStep4 (hs.keep rfl (by simp)) hp)

theorem buffer_recvDrain {s : State} (hs : s.bufferDiscipline) (hp : s.phase.holdsBuffer = false) :
    AllNext State.bufferDiscipline (recvDrain s) :=
  buffer_drain hs fun _ ht hphase => ht.keep (by rw [hphase, hp]; rfl) (by simp)

theorem buffer_recvStep2 {s : State} (hs : s.bufferDiscipline) (hp : s.phase.holdsBuffer = false) :
    AllNext State.bufferDiscipline (recvStep2 s) :=
  allNext_recvStep2
    (fun _ => buffer_recvDrain (buffer_beginDrain (hs.keep rfl (by simp)) _ hp.symm) rfl)
    (fun _ _ => buffer_recvStep3 (hs.keep hp.symm (by simp)) rfl)

theorem buffer_recvStep1 {s : State} (hs : s.bufferDiscipline) (hp : s.phase.holdsBuffer = false) :
    AllNext State.bufferDiscipline (recvStep1 s) :=
  allNext_recvStep1 hs
    (fun _ _ _ _ _ _ => hs.keep hp.symm (by simp))
    (fun _ _ _ _ _ => buffer_recvStep2 (hs.keep rfl (by simp)) hp)

theorem buffer_sendStep5 {s : State} {c : Caller} (hs : s.bufferDiscipline)
    (hp : s.phase.holdsBuffer = c.restPhase.holdsBuffer) : AllNext State.bufferDiscipline (sendStep5 c s) :=
  allNext_sendStep5 hs fun _ _ => hs.keep hp.symm (by simp)

theorem buffer_sendStep4 {s : State} {c : Caller} (hs : s.bufferDiscipline)
    (hp : s.phase.holdsBuffer = c.restPhase.holdsBuffer) : AllNext State.bufferDiscipline (sendStep4 c s) :=
  allNext_sendStep4 hs fun _ _ => buffer_sendStep5 (hs.keep (by simp [hp]) (by simp)) (by simp)

theorem buffer_sendStep3 {s : State} {c : Caller} (hs : s.bufferDiscipline)
    (hp : s.phase.holdsBuffer = c.restPhase.holdsBuffer) : AllNext State.bufferDiscipline (sendStep3 c s) :=
  allNext_sendStep3 hs fun _ _ _ _ => buffer_sendStep4 (hs.keep (by simp [hp]) (by simp)) (by simp)

theorem buffer_sendStep2 {s : State} {c : Caller} (hs : s.bufferDiscipline)
    (hp : s.phase.holdsBuffer = c.restPhase.holdsBuffer) : AllNext State.bufferDiscipline (sendStep2 c s) :=
  allNext_sendStep2 hs fun _ _ => buffer_sendStep3 (hs.keep (by simp [hp]) (by simp)) (by simp)

theorem buffer_sendStep1 {s : State} {c : Caller} (hs : s.bufferDiscipline)
    (hp : s.phase.holdsBuffer = c.restPhase.holdsBuffer) : AllNext State.bufferDiscipline (sendStep1 c s) :=
  allNext_sendStep1 fun _ _ => buffer_sendStep2 (hs.keep (by simp [hp]) (by simp)) (by simp)

/-! ### Commands and steps -/

theorem buffer_exec (i : Instr) {s : State} (hs : s.bufferDiscipline) : AllNext State.bufferDiscipline (exec i s) := by
  have rejected (c : Caller) (why : Rejection) (k : ResponseKind) : (s.reject c why k).bufferDiscipline :=
    hs.keep (by simp) (by simp)
  cases i with
  | begin =>
    exact allNext_execBegin (fun _ => rejected ..)
      fun hp => buffer_beginAwait (hs.keep (by rw [hp]; rfl) (by simp)) rfl
  | haserr => exact allNext_accept fun _ _ => hs.keep rfl (by simp)
  | geterr => exact allNext_accept fun _ _ => hs.keep rfl (by simp)
  | seth ref => exact allNext_accept fun _ _ => hs.keep rfl (by simp)
  | poll =>
    exact allNext_execPoll (fun _ => rejected ..) (fun _ _ => rejected ..)
      fun hp _ => buffer_pollStep0 (hs.keep (by rw [hp]; rfl) (by simp)) rfl
  | recv n =>
    exact allNext_execRecv (fun _ => rejected ..) (fun _ _ => rejected ..)
      fun hp _ => buffer_recvStep1 (hs.keep (by rw [hp]; rfl) (by simp)) rfl
  | send dst n =>
    exact allNext_execSend (fun _ _ _ => rejected ..)
      fun c hp _ => buffer_sendStep1 (hs.keep (by simp [hp]) (by simp)) (by simp)
  | recvl rest => exact allNext_accept fun _ _ => rejected ..

theorem buffer_runCommand (c : Command) {s : State} (hs : s.bufferDiscipline) :
    AllNext State.bufferDiscipline (runCommand c s) :=
  allNext_runCommand
    (fun i _ => buffer_exec i (hs.keep (by simp) (by simp)))
    (fun _ _ _ _ => hs.keep (by simp) (by simp))

theorem buffer_resume {s : State} (hs : s.bufferDiscipline) : AllNext State.bufferDiscipline (resume s) := by
  unfold resume
  cases hp : s.phase with
  | idle => trivial
  | begin1 => exact buffer_beginAwait hs (by rw [hp]; rfl)
  | poll0 => exact buffer_pollStep0 hs (by rw [hp]; rfl)
  | poll1 => exact buffer_pollStep1 hs (by rw [hp]; rfl)
  | poll2 => exact buffer_pollDrain hs (by rw [hp]; rfl)
  | poll3 => exact buffer_pollStep3 hs (by rw [hp]; rfl)
  | poll4 => exact buffer_pollStep4 hs (by rw [hp]; rfl)
  | poll5 => exact buffer_pollStep5 hs (by rw [hp]; rfl)
  | dispatch => exact buffer_awaitHandler hs
  | poll6 => exact buffer_pollStep6 hs
  | recv1 => exact buffer_recvStep1 hs (by rw [hp]; rfl)
  | recv2 => exact buffer_recvDrain hs (by rw [hp]; rfl)
  | recv3 => exact buffer_recvStep3 hs (by rw [hp]; rfl)
  | recv4 => exact buffer_recvStep4 hs (by rw [hp]; rfl)
  | send1 c => exact buffer_sendStep1 hs (by simp [hp])
  | send2 c => exact buffer_sendStep2 hs (by simp [hp])
  | send3 c => exact buffer_sendStep3 hs (by simp [hp])
  | send4 c => exact buffer_sendStep4 hs (by simp [hp])
  | send5 c => exact buffer_sendStep5 hs (by simp [hp])

/-- Settles O52: a command leaves its list and a running operation goes on under the discipline. -/
theorem stepKeepsBufferDiscipline : Obligations.StepKeepsBufferDiscipline := fun _ _ hs hstep =>
  (allNext_step
    (fun c _ _ _ => buffer_runCommand c (hs.keep rfl (by simp)))
    (fun c _ _ _ => buffer_runCommand c (hs.keep rfl (by simp)))
    (fun _ => buffer_resume hs)).of_eq hstep

/-! ## What POLL leaves alone -/

/-- `t` can follow `s` in a POLL whose header is loaded (42_poll R140, from step 2 on): the header and what POLL does
not write are the same, the status is the same or one of its errors, and `PBUF` has no new byte outside the payload. -/
structure PollKeeps (s t : State) : Prop where
  frame :
    { t with
        hdr := s.hdr, localId := s.localId, handlerValid := s.handlerValid, handlerRef := s.handlerRef
        cmdDst := s.cmdDst, cmdArg := s.cmdArg, nestedHdr := s.nestedHdr, cbuf := s.cbuf, src := s.src, tx := s.tx
        cmds := s.cmds, crcUnit := s.crcUnit, draws := s.draws, freeSource := s.freeSource } = t
  status : t.status = s.status ∨ t.status ∈ [.badHeader, .packetOverSize, .allocationFailure, .badPacket]
  pbuf : ∀ a, s.hdr.size.toNat ≤ a → t.pbuf.read a = s.pbuf.read a ∨ t.pbuf.read a = none

namespace PollKeeps

theorem hdr_eq {s t : State} (h : PollKeeps s t) : t.hdr = s.hdr := by
  rw [← h.frame]

theorem refl (s : State) : PollKeeps s s := ⟨rfl, .inl rfl, fun _ _ => .inl rfl⟩

theorem trans {s t u : State} (h : PollKeeps s t) (k : PollKeeps t u) : PollKeeps s u where
  frame := by
    have e := k.frame
    rw [← h.frame] at e
    exact e
  status := by
    rcases k.status with same | written
    · exact same ▸ h.status
    · exact .inr written
  pbuf a ha := by
    rcases k.pbuf a (h.hdr_eq ▸ ha) with same | gone
    · exact same ▸ h.pbuf a ha
    · exact .inr gone

/-- The rest of an operation, after an update. -/
theorem after {s t : State} {r : Result} (hr : AllNext (PollKeeps t) r) (h : PollKeeps s t) :
    AllNext (PollKeeps s) r :=
  hr.mono fun _ => h.trans

theorem releaseBuffer (s : State) : PollKeeps s s.releaseBuffer := by
  cases hb : s.bufh with
  | none => rw [State.releaseBuffer_none s hb]; exact refl s
  | some h => rw [State.releaseBuffer_held s h hb]; exact ⟨rfl, .inl rfl, fun _ _ => .inr rfl⟩

/-- What POLL writes besides the status, the header and `PBUF`. -/
theorem record (s : State) (p : Phase) (b : Option Handle) (n : U16) (t : Transport) (a : Allocator)
    (moves : List HandlerMove) (es : List Event) (rs : List (Caller × Response)) (why : List Rejection) :
    PollKeeps s { s with phase := p, bufh := b, drainLeft := n, transport := t, allocator := a, handler := moves,
                         trace := es, responses := rs, rejected := why } :=
  ⟨rfl, .inl rfl, fun _ _ => .inl rfl⟩

/-- The same with one of POLL's errors stored. -/
theorem error (s : State) {st : Status} (hst : st ∈ [.badHeader, .packetOverSize, .allocationFailure, .badPacket])
    (p : Phase) (n : U16) (t : Transport) (a : Allocator) (es : List Event) (rs : List (Caller × Response)) :
    PollKeeps s { s with status := st, phase := p, drainLeft := n, transport := t, allocator := a, trace := es,
                         responses := rs } :=
  ⟨rfl, .inr hst, fun _ _ => .inl rfl⟩

/-- The payload's bytes stand below its size. -/
theorem fill (s : State) (t : Transport) (k : U16) {d : List Byte} (hd : d.length ≤ s.hdr.size.toNat) :
    PollKeeps s { s with transport := t, trace := s.trace ++ [.answer (.tReadBytes k d)],
                         pbuf := s.pbuf.writeBytes 0 d } where
  frame := rfl
  status := .inl rfl
  pbuf _ ha := .inl (Memory.read_writeBytes_outside d _ 0 _ (.inr (by omega)))

end PollKeeps

theorem pollKeeps_pollStep6 (s : State) : AllNext (PollKeeps s) (pollStep6 s) :=
  (PollKeeps.releaseBuffer s).trans (.record ..)

theorem pollKeeps_awaitHandler (s : State) : AllNext (PollKeeps s) (awaitHandler s) :=
  allNext_awaitHandler (.refl s) fun _ _ => PollKeeps.after (pollKeeps_pollStep6 _) (.record ..)

theorem pollKeeps_pollStep5 (s : State) : AllNext (PollKeeps s) (pollStep5 s) :=
  allNext_pollStep5
    (fun _ _ _ _ => PollKeeps.after (pollKeeps_awaitHandler _) (.record ..))
    (fun _ => pollKeeps_pollStep6 s)

theorem pollKeeps_pollStep4 (s : State) : AllNext (PollKeeps s) (pollStep4 s) :=
  allNext_pollStep4 (.refl s)
    (fun k d t _ hk hd =>
      have hle : d.length ≤ s.hdr.size.toNat := hd ▸ Nat.le_of_lt hk
      ((PollKeeps.fill s t k hle).trans (.releaseBuffer _)).trans (.error _ (by simp) ..))
    (fun d t _ hd => PollKeeps.after (pollKeeps_pollStep5 _) (.fill s t _ hd.le))

theorem pollKeeps_pollStep3 (s : State) : AllNext (PollKeeps s) (pollStep3 s) :=
  allNext_pollStep3 (.refl s)
    (fun _ _ => .error s (by simp) ..)
    (fun _ _ _ => PollKeeps.after (pollKeeps_pollStep4 _) ⟨rfl, .inl rfl, fun _ _ => .inr rfl⟩)

theorem pollKeeps_pollDrain (s : State) : AllNext (PollKeeps s) (pollDrain s) :=
  allNext_awaitDrain (fun _ _ _ _ => .record ..) (fun _ _ _ _ => .record ..)

theorem pollKeeps_pollStep2 (s : State) : AllNext (PollKeeps s) (pollStep2 s) :=
  allNext_pollStep2
    (fun _ => PollKeeps.after (pollKeeps_pollDrain _) (.error s (by simp) ..))
    (fun _ => PollKeeps.after (pollKeeps_pollStep3 _) (.record ..))

/-- What a whole POLL can do: it loads a header, or leaves the one it finds, and keeps that one's payload rule. -/
def PollAdvances (s t : State) : Prop := ∃ h, PollKeeps { s with hdr := h } t

theorem PollKeeps.advances {s t : State} (h : PollKeeps s t) : PollAdvances s t := ⟨s.hdr, h⟩

/-- An update before the header is loaded, `PBUF` untouched. -/
theorem PollAdvances.after {s t : State} {r : Result} (hr : AllNext (PollAdvances t) r)
    (h : ∀ hdr, PollKeeps { s with hdr := hdr } { t with hdr := hdr }) : AllNext (PollAdvances s) r :=
  hr.mono fun _ ⟨hdr, k⟩ => ⟨hdr, (h hdr).trans k⟩

theorem pollAdvances_pollStep1 (s : State) : AllNext (PollAdvances s) (pollStep1 s) :=
  allNext_pollStep1 (PollKeeps.refl s).advances
    (fun _ _ _ _ _ _ => (PollKeeps.error s (by simp) ..).advances)
    (fun _ _ h _ _ => (pollKeeps_pollStep2 _).mono fun _ k => ⟨h, (PollKeeps.record ..).trans k⟩)

theorem pollAdvances_pollStep0 (s : State) : AllNext (PollAdvances s) (pollStep0 s) :=
  allNext_pollStep0 (PollKeeps.refl s).advances
    (fun _ _ => (PollKeeps.record ..).advances)
    (fun _ _ => PollAdvances.after (pollAdvances_pollStep1 _) fun _ => .record ..)

theorem pollAdvances_exec (s : State) : AllNext (PollAdvances s) (exec .poll s) :=
  allNext_execPoll (fun _ => (PollKeeps.record ..).advances) (fun _ _ => (PollKeeps.record ..).advances)
    fun _ _ => PollAdvances.after (pollAdvances_pollStep0 _) fun _ => .record ..

/-- A step that goes on with a POLL outside its dispatch. -/
theorem pollAdvances_resume {s : State} (hp : s.phase ∈ [.poll0, .poll1, .poll2, .poll3, .poll4, .poll5, .poll6]) :
    AllNext (PollAdvances s) (resume s) := by
  simp only [List.mem_cons, List.not_mem_nil, or_false] at hp
  unfold resume
  rcases hp with hp | hp | hp | hp | hp | hp | hp <;> rw [hp]
  · exact pollAdvances_pollStep0 s
  · exact pollAdvances_pollStep1 s
  · exact (pollKeeps_pollDrain s).mono fun _ => PollKeeps.advances
  · exact (pollKeeps_pollStep3 s).mono fun _ => PollKeeps.advances
  · exact (pollKeeps_pollStep4 s).mono fun _ => PollKeeps.advances
  · exact (pollKeeps_pollStep5 s).mono fun _ => PollKeeps.advances
  · exact (pollKeeps_pollStep6 s).mono fun _ => PollKeeps.advances

theorem pollAdvances_step {s : State} (hp : s.phase ∈ [.poll0, .poll1, .poll2, .poll3, .poll4, .poll5, .poll6]) :
    AllNext (PollAdvances s) (step s) :=
  allNext_step (fun _ _ hidle _ => by simp [hidle] at hp) (fun _ _ hdisp _ => by simp [hdisp] at hp)
    fun _ => pollAdvances_resume hp

/-- The step in which the handler's return ends the POLL. -/
theorem pollAdvances_step_ret {s : State} {moves : List HandlerMove} (hp : s.phase = .dispatch)
    (hm : s.handler = .ret :: moves) : AllNext (PollAdvances s) (step s) := by
  rw [step_ret hp hm]
  exact (PollKeeps.after (pollKeeps_pollStep6 _) (.record ..)).mono fun _ => PollKeeps.advances

/-- Settles O27: what a POLL keeps is said of the header it loads, which is the one it ends with. -/
theorem pollFrame : Obligations.PollFrame := by
  intro s t h
  have hadv : PollAdvances s t := by
    rcases h with hexec | ⟨hstep, hp | ⟨hp, moves, hm⟩⟩
    · exact (pollAdvances_exec s).of_eq hexec
    · exact (pollAdvances_step hp).of_eq hstep
    · exact (pollAdvances_step_ret hp hm).of_eq hstep
  obtain ⟨hdr, k⟩ := hadv
  rw [← k.frame]
  exact ⟨rfl, rfl, rfl, rfl, rfl, rfl, rfl, rfl, rfl, rfl, rfl, rfl, rfl, k.status, k.pbuf⟩

/-! ## Who writes the status -/

/-- The statuses an operation of the host can store (10_state R23). No operand matters. -/
def storable : Instr → List Status
  | .begin => [.ready]
  | .poll => [.badHeader, .packetOverSize, .allocationFailure, .badPacket]
  | .recv _ => [.badHeader, .packetOverSize, .badPacket, .crcError]
  | _ => []

/-- From `s` to `t` the status is kept or becomes one of `sts`, and a registered handler stays (10_state R24). -/
def StatusWrites (sts : List Status) (s t : State) : Prop :=
  (t.status = s.status ∨ t.status ∈ sts) ∧ (s.handlerValid = true → t.handlerValid = true)

namespace StatusWrites

theorem refl (sts : List Status) (s : State) : StatusWrites sts s s := ⟨.inl rfl, id⟩

theorem store {sts : List Status} {s t : State} (h : StatusWrites sts s t) {st : Status} (hst : st ∈ sts) :
    StatusWrites sts s { t with status := st } :=
  ⟨.inr hst, h.2⟩

/-- A POLL stores no other status than its errors. -/
theorem poll {sts : List Status} {s t u : State} (h : StatusWrites sts s t) (hsts : storable .poll ⊆ sts)
    (hu : PollAdvances t u) : StatusWrites sts s u := by
  obtain ⟨hdr, k⟩ := hu
  have hvalid : u.handlerValid = t.handlerValid := by rw [← k.frame]
  refine ⟨?_, fun hs => hvalid.trans (h.2 hs)⟩
  rcases k.status with same | written
  · exact same ▸ h.1
  · exact .inr (hsts written)

end StatusWrites

section

variable {sts : List Status} {s₀ s : State} {c : Caller} (h : StatusWrites sts s₀ s)
include h

theorem statusWrites_reject (c : Caller) (why : Rejection) (k : ResponseKind) :
    StatusWrites sts s₀ (s.reject c why k) := by
  simpa [StatusWrites] using h

theorem statusWrites_handOver (i : Instr) (m : Memory) : StatusWrites sts s₀ (s.handOver i m) := by
  simpa [StatusWrites] using h

theorem statusWrites_beginAwait (hsts : storable .begin ⊆ sts) : AllNext (StatusWrites sts s₀) (beginAwait s) :=
  allNext_beginAwait h fun _ _ => h.store (hsts (by simp [storable]))

theorem statusWrites_awaitHandler : AllNext (StatusWrites sts s₀) (awaitHandler s) :=
  allNext_awaitHandler h fun _ _ => allNext_pollStep6 (by simpa [StatusWrites] using h)

theorem statusWrites_recvStep4 (hsts : storable (.recv 0) ⊆ sts) :
    AllNext (StatusWrites sts s₀) (recvStep4 s) :=
  allNext_recvStep4 (fun _ _ _ => h) (fun _ _ _ => h.store (hsts (by simp [storable])))

theorem statusWrites_recvStep3 (hsts : storable (.recv 0) ⊆ sts) :
    AllNext (StatusWrites sts s₀) (recvStep3 s) :=
  allNext_recvStep3 h
    (fun _ _ _ _ _ _ => h.store (hsts (by simp [storable])))
    (fun _ _ _ _ => statusWrites_recvStep4 h hsts)

theorem statusWrites_recvDrain : AllNext (StatusWrites sts s₀) (recvDrain s) :=
  allNext_awaitDrain (fun _ _ _ _ => h) (fun _ _ _ _ => h)

theorem statusWrites_recvStep2 (hsts : storable (.recv 0) ⊆ sts) :
    AllNext (StatusWrites sts s₀) (recvStep2 s) :=
  allNext_recvStep2
    (fun _ => statusWrites_recvDrain (h.store (st := .packetOverSize) (hsts (by simp [storable]))))
    (fun _ _ => statusWrites_recvStep3 h hsts)

theorem statusWrites_recvStep1 (hsts : storable (.recv 0) ⊆ sts) :
    AllNext (StatusWrites sts s₀) (recvStep1 s) :=
  allNext_recvStep1 h
    (fun _ _ _ _ _ _ => h.store (hsts (by simp [storable])))
    (fun _ _ _ _ _ => statusWrites_recvStep2 h hsts)

theorem statusWrites_sendStep5 : AllNext (StatusWrites sts s₀) (sendStep5 c s) :=
  allNext_sendStep5 h fun _ _ => h

theorem statusWrites_sendStep4 : AllNext (StatusWrites sts s₀) (sendStep4 c s) :=
  allNext_sendStep4 h fun _ _ => statusWrites_sendStep5 h

theorem statusWrites_sendStep3 : AllNext (StatusWrites sts s₀) (sendStep3 c s) :=
  allNext_sendStep3 h fun _ _ _ _ => statusWrites_sendStep4 h

theorem statusWrites_sendStep2 : AllNext (StatusWrites sts s₀) (sendStep2 c s) :=
  allNext_sendStep2 h fun _ _ => statusWrites_sendStep3 h

theorem statusWrites_sendStep1 : AllNext (StatusWrites sts s₀) (sendStep1 c s) :=
  allNext_sendStep1 fun _ _ => statusWrites_sendStep2 (by simpa [StatusWrites] using h)

/-- From the handler no command stores a status; from the host each stores its own. -/
theorem statusWrites_exec (i : Instr) (hsts : s.phase = .idle → storable i ⊆ sts) :
    AllNext (StatusWrites sts s₀) (exec i s) := by
  cases i with
  | begin => exact allNext_execBegin (fun _ => statusWrites_reject h ..) fun hp => statusWrites_beginAwait h (hsts hp)
  | haserr => exact allNext_accept fun _ _ => h
  | geterr => exact allNext_accept fun _ _ => h
  | seth ref => exact allNext_accept fun _ _ => ⟨h.1, fun _ => rfl⟩
  | poll =>
    exact allNext_execPoll (fun _ => statusWrites_reject h ..) (fun _ _ => statusWrites_reject h ..)
      fun hp _ => (pollAdvances_pollStep0 _).mono fun _ => StatusWrites.poll h (hsts hp)
  | recv n =>
    exact allNext_execRecv (fun _ => statusWrites_reject h ..) (fun _ _ => statusWrites_reject h ..)
      fun hp _ => statusWrites_recvStep1 h (hsts hp)
  | send dst n =>
    exact allNext_execSend (fun _ _ _ => statusWrites_reject h ..) fun c _ _ => statusWrites_sendStep1 h
  | recvl rest => exact allNext_accept fun _ _ => statusWrites_reject h ..

theorem statusWrites_runCommand (c : Command)
    (hsts : ∀ i, decode c.word = .instr i → s.phase = .idle → storable i ⊆ sts) :
    AllNext (StatusWrites sts s₀) (runCommand c s) :=
  allNext_runCommand
    (fun i hi => statusWrites_exec (statusWrites_handOver h ..) i (by simpa using hsts i hi))
    (fun _ _ _ _ => statusWrites_reject h ..)

end

/-- The statuses a step from `s` may store: those of the operation it begins or goes on with. -/
inductive State.MayStore (s : State) : List Status → Prop
  | begin : s.runsBegin → s.MayStore (storable .begin)
  | poll : s.runsPoll → s.MayStore (storable .poll)
  | recv : s.runsRecv → s.MayStore (storable (.recv 0))
  | none : s.MayStore []

theorem State.takes.mayStore {s : State} {i : Instr} (h : s.takes i) : s.MayStore (storable i) := by
  cases i with
  | begin => exact .begin (.inr h)
  | poll => exact .poll (.inr h)
  | recv n => exact .recv (.inr ⟨n, h⟩)
  | _ => exact .none

theorem statusWrites_resume (s : State) : ∃ sts, s.MayStore sts ∧ AllNext (StatusWrites sts s) (resume s) := by
  have same := StatusWrites.refl [] s
  by_cases hpoll : s.phase ∈ [.poll0, .poll1, .poll2, .poll3, .poll4, .poll5, .poll6]
  · exact ⟨_, .poll (.inl hpoll),
      (pollAdvances_resume hpoll).mono fun _ => StatusWrites.poll (.refl _ s) (List.Subset.refl _)⟩
  by_cases hrecv : s.phase ∈ [.recv1, .recv2, .recv3, .recv4]
  · refine ⟨_, .recv (.inl hrecv), ?_⟩
    have h := StatusWrites.refl (storable (.recv 0)) s
    have hsts := List.Subset.refl (storable (.recv 0))
    simp only [List.mem_cons, List.not_mem_nil, or_false] at hrecv
    unfold resume
    rcases hrecv with hp | hp | hp | hp <;> rw [hp]
    · exact statusWrites_recvStep1 h hsts
    · exact statusWrites_recvDrain h
    · exact statusWrites_recvStep3 h hsts
    · exact statusWrites_recvStep4 h hsts
  unfold resume
  cases hp : s.phase with
  | poll0 | poll1 | poll2 | poll3 | poll4 | poll5 | poll6 => simp [hp] at hpoll
  | recv1 | recv2 | recv3 | recv4 => simp [hp] at hrecv
  | idle => exact ⟨_, .none, trivial⟩
  | begin1 => exact ⟨_, .begin (.inl hp), statusWrites_beginAwait (.refl _ s) (List.Subset.refl _)⟩
  | dispatch => exact ⟨_, .none, statusWrites_awaitHandler same⟩
  | send1 c => exact ⟨_, .none, statusWrites_sendStep1 same⟩
  | send2 c => exact ⟨_, .none, statusWrites_sendStep2 same⟩
  | send3 c => exact ⟨_, .none, statusWrites_sendStep3 same⟩
  | send4 c => exact ⟨_, .none, statusWrites_sendStep4 same⟩
  | send5 c => exact ⟨_, .none, statusWrites_sendStep5 same⟩

/-- A step stores no status but those of the operation it begins or goes on with. -/
theorem statusWrites_step {s t : State} (hstep : step s = .next t) :
    ∃ sts, s.MayStore sts ∧ StatusWrites sts s t := by
  refine (allNext_step (P := fun t => ∃ sts, s.MayStore sts ∧ StatusWrites sts s t) ?host ?handler ?go).of_eq hstep
  case host =>
    intro c rest hp hcmds
    cases hc : decode c.word with
    | instr i =>
      have htakes : s.takes i := ⟨hp, c, rest, hcmds, hc⟩
      refine (statusWrites_runCommand (s := { s with cmds := rest }) (.refl (storable i) s) c ?_).mono
        fun _ h => ⟨_, htakes.mayStore, h⟩
      intro j hj _
      rw [hc, Decoded.instr.injEq] at hj
      exact hj ▸ List.Subset.refl _
    | reserved why =>
      refine (statusWrites_runCommand (s := { s with cmds := rest }) (.refl [] s) c ?_).mono
        fun _ h => ⟨_, .none, h⟩
      simp [hc]
  case handler =>
    intro c rest hp _
    refine (statusWrites_runCommand (s := { s with handler := rest }) (.refl [] s) c ?_).mono
      fun _ h => ⟨_, .none, h⟩
    simp [hp]
  case go =>
    obtain ⟨sts, hsts, h⟩ := statusWrites_resume s
    exact fun _ => h.mono fun _ hw => ⟨sts, hsts, hw⟩

theorem State.MayStore.notInitialized_not_mem {s : State} {sts : List Status} (h : s.MayStore sts) :
    .notInitialized ∉ sts := by
  cases h <;> simp [storable]

/-- Settles O46: the node id is one of the things every step keeps; the rest is what a step may store. -/
theorem lifetimeRegistersAreMonotone : Obligations.LifetimeRegistersAreMonotone := by
  intro s t hstep
  obtain ⟨sts, hsts, hstatus, hvalid⟩ := statusWrites_step hstep
  refine ⟨((advances_step s).of_eq hstep).localId, hvalid, fun hs ht => ?_⟩
  rcases hstatus with same | stored
  · exact hs (same ▸ ht)
  · exact hsts.notInitialized_not_mem (ht ▸ stored)

/-- Settles O47: by the operation whose statuses the step may store. -/
theorem statusWriters : Obligations.StatusWriters := by
  intro s t hstep hne
  obtain ⟨sts, hsts, hstatus, -⟩ := statusWrites_step hstep
  have hstored := hstatus.resolve_left hne
  cases hsts with
  | begin hruns => exact .inl ⟨hruns, by simpa [storable] using hstored⟩
  | poll hruns => exact .inr (.inl ⟨hruns, hstored⟩)
  | recv hruns => exact .inr (.inr ⟨hruns, hstored⟩)
  | none => simp at hstored

/-! ## SEND, request by request -/

section

variable {s : State} {c : Caller}

theorem goesOn_send2 (hp : s.phase = .send2 c) : goesOn s = sendStep2 c s := by
  rw [goesOn_resume (by simp [hp]) (by simp [hp]), resume, hp]

theorem goesOn_send3 (hp : s.phase = .send3 c) : goesOn s = sendStep3 c s := by
  rw [goesOn_resume (by simp [hp]) (by simp [hp]), resume, hp]

theorem goesOn_send4 (hp : s.phase = .send4 c) : goesOn s = sendStep4 c s := by
  rw [goesOn_resume (by simp [hp]) (by simp [hp]), resume, hp]

theorem goesOn_send5 (hp : s.phase = .send5 c) : goesOn s = sendStep5 c s := by
  rw [goesOn_resume (by simp [hp]) (by simp [hp]), resume, hp]

/-- In a running operation whose answer is there, a step goes on. -/
theorem step_eq_goesOn (h : s.waitingOn = none) : step s = goesOn s := by
  simp [goesOn, h]

theorem sendStep2_taken {t : Transport} (ht : s.transport.takeBeginTransmission = some t) :
    sendStep2 c s =
      goesOn { s with transport := t, phase := .send3 c, tx := s.tx ++ buildHeader (s.sendHdr c),
                      trace := s.trace ++ [.request (.tWrite (buildHeader (s.sendHdr c)))] } := by
  rw [goesOn_send3 rfl, sendStep2, ht]
  rfl

theorem sendStep3_taken {t : Transport} {p : List Byte} (ht : s.transport.takeWrite = some t)
    (hsrc : s.src.readBytes 0 (s.sendHdr c).size.toNat = some p) :
    sendStep3 c s =
      goesOn { s with transport := t, phase := .send4 c, tx := s.tx ++ p,
                      trace := s.trace ++ [.request (.tWrite p)] } := by
  rw [goesOn_send4 rfl, sendStep3, ht]
  simp only [hsrc]
  rfl

theorem sendStep4_taken {t : Transport} (ht : s.transport.takeWrite = some t) :
    sendStep4 c s =
      goesOn { s with transport := t, phase := .send5 c, trace := s.trace ++ [.request .tEndTransmission] } := by
  rw [goesOn_send5 rfl, sendStep4, ht]
  rfl

theorem sendStep5_taken {t : Transport} (ht : s.transport.takeEndTransmission = some t) :
    sendStep5 c s =
      .next { s with transport := t, phase := c.restPhase, responses := s.responses ++ [(c, .done)] } := by
  rw [sendStep5, ht]
  rfl

@[simp] theorem caller_of_restPhase (c : Caller) : c.restPhase.caller = some c := by cases c <;> rfl

/-- A SEND past the gate stands at, or goes on from, the opening of its bracket. -/
theorem exec_send {dst : Byte} {size : U16} {p : List Byte} (hp : s.phase = c.restPhase)
    (hs : s.status ≠ .notInitialized) (hsrc : s.src.readBytes 0 size.toNat = some p) :
    exec (.send dst size) s =
      goesOn (State.loadSendHdr
        { s with phase := .send2 c, cmdDst := dst, cmdArg := size,
                 trace := s.trace ++ [.request .tBeginTransmission] } c (s.sentHeader dst size p)) := by
  rw [goesOn_send2 (c := c) (by simp)]
  simp only [exec, execSend, State.accept, hp, caller_of_restPhase, State.gate, hs, if_false, sendStep1, hsrc]
  cases c <;> rfl

/-- With all four requests taken, a SEND that stands at the opening of its bracket ends with its frame in `TX`. -/
theorem goesOn_send_taken {p : List Byte} {t : Transport} (hp : s.phase = .send2 c)
    (hsrc : s.src.readBytes 0 (s.sendHdr c).size.toNat = some p) (ht : sendTaken s.transport t) :
    goesOn s =
      .next { s with transport := t, phase := c.restPhase, tx := s.tx ++ sendFrame (s.sendHdr c) p,
                     trace := s.trace ++ [.request (.tWrite (buildHeader (s.sendHdr c))), .request (.tWrite p),
                       .request .tEndTransmission],
                     responses := s.responses ++ [(c, .done)] } := by
  obtain ⟨t1, t2, t3, h1, h2, h3, h4⟩ := ht
  rw [goesOn_send2 hp, sendStep2_taken h1, goesOn_send3 rfl, sendStep3_taken (p := p) h2 (by cases c <;> exact hsrc),
    goesOn_send4 rfl, sendStep4_taken h3, goesOn_send5 rfl, sendStep5_taken h4]
  simp [sendFrame]

end

/-- Settles O35: past the gate a SEND goes on from the opening of its bracket, and each request taken leads to the
next. -/
theorem sendWritesOneFrame : Obligations.SendWritesOneFrame := by
  refine ⟨?whole, fun s c dst size p hp hs hsrc => exec_send hp hs hsrc, ?step2, ?step3, ?step4, ?step5⟩
  case whole =>
    intro s c dst size p t' hp hs hsrc ht
    rw [exec_send hp hs hsrc, goesOn_send_taken (c := c) (p := p) (by simp) (by simpa [State.sentHeader] using hsrc)
      (by simpa using ht)]
    cases c <;> simp [State.loadSendHdr, State.sendHdr, sendEvents, hp]
  case step2 =>
    intro s c t hp ht
    rw [step_eq_goesOn (by simp [State.waitingOn, hp, ht]), goesOn_send2 hp, sendStep2_taken ht]
  case step3 =>
    intro s c p t hp ht hsrc
    rw [step_eq_goesOn (by simp [State.waitingOn, hp, ht]), goesOn_send3 hp, sendStep3_taken ht hsrc]
  case step4 =>
    intro s c t hp ht
    rw [step_eq_goesOn (by simp [State.waitingOn, hp, ht]), goesOn_send4 hp, sendStep4_taken ht]
  case step5 =>
    intro s c t hp ht
    rw [step_eq_goesOn (by simp [State.waitingOn, hp, ht]), goesOn_send5 hp, sendStep5_taken ht]

/-! ## Where a step ends -/

/-- A drain that gets fewer answers than it asks for stops at a read the transport has not answered. -/
theorem Transport.read_of_drain_short {n : Nat} {t : Transport} (h : (t.drain n).1.length < n) :
    (t.drain n).2.read = none := by
  induction n generalizing t with
  | zero => simp at h
  | succ n ih =>
    cases hr : t.read with
    | none => rw [Transport.drain_none _ _ hr]; exact hr
    | some a =>
      rw [Transport.drain_some _ _ _ _ hr] at h ⊢
      exact ih (by simpa using h)

/-- An operation has gone as far as the answers go (log 14): it ended at rest or in a dispatch, it stands where the next
answer is missing, or it was refused for a broken assumption. -/
def GoneFar : Result → Prop
  | .next t => t.phase = .idle ∨ t.phase = .dispatch ∨ ∃ ch, t.waitingOn = some ch
  | .fault _ => False
  | .refused r => r = .transportContract ∨ ∃ sp, r = .bufferByteMissing sp

theorem goneFar_rest {t : State} (c : Caller) (h : t.phase = c.restPhase) : GoneFar (.next t) := by
  cases c with
  | host => exact .inl h
  | handler => exact .inr (.inl h)

theorem goneFar_wait {t : State} {ch : Channel} (h : t.waitingOn = some ch) : GoneFar (.next t) := .inr (.inr ⟨ch, h⟩)

theorem goneFar_byteMissing (sp : Space) : GoneFar (.refused (.bufferByteMissing sp)) := .inr ⟨sp, rfl⟩

/-! ### The shared operations -/

theorem goneFar_accept {s : State} {c : Caller} {k : Caller → Result} (hp : s.phase = c.restPhase) (h : GoneFar (k c)) :
    GoneFar (s.accept k) := by
  rw [State.accept, hp, caller_of_restPhase]
  exact h

theorem goneFar_reject {s : State} {c : Caller} (hp : s.phase = c.restPhase) (who : Caller) (why : Rejection)
    (kind : ResponseKind) : GoneFar (.next (s.reject who why kind)) :=
  goneFar_rest c (by simpa using hp)

theorem goneFar_acceptHost {s : State} {c : Caller} {why : Rejection} {kind : ResponseKind} {k : Result}
    (hp : s.phase = c.restPhase) (h : GoneFar k) : GoneFar (s.acceptHost why kind k) := by
  rw [State.acceptHost, hp, caller_of_restPhase]
  cases c with
  | host => exact h
  | handler => exact goneFar_reject hp ..

theorem goneFar_gate {s : State} {c who : Caller} {kind : ResponseKind} {k : Result} (hp : s.phase = c.restPhase)
    (h : GoneFar k) : GoneFar (s.gate who kind k) := by
  unfold State.gate
  split
  · exact goneFar_reject hp ..
  · exact h

theorem goneFar_awaitReadBytes {s : State} {n : U16} {k : U16 → List Byte → State → Result}
    (wait : s.transport.readBytes n = none → s.waitingOn = some .tReadBytes) (ans : ∀ got d s', GoneFar (k got d s')) :
    GoneFar (s.awaitReadBytes n k) := by
  unfold State.awaitReadBytes
  split
  · exact goneFar_wait (wait ‹_›)
  · split
    · exact ans ..
    · exact .inl rfl

theorem goneFar_awaitHeader {s : State} {bad : State → State} {k : State → Result}
    (wait : s.transport.readBytes Config.headerSize = none → s.waitingOn = some .tReadBytes)
    (short : ∀ s', (bad s').phase = .idle) (full : ∀ s', GoneFar (k s')) : GoneFar (s.awaitHeader bad k) := by
  refine goneFar_awaitReadBytes wait fun _ d s' => ?_
  split
  · exact goneFar_rest .host (short s')
  · exact full _

theorem goneFar_awaitDrain {s : State} {fin : State → State} (hp : s.phase = .poll2 ∨ s.phase = .recv2)
    (hfin : ∀ t, (fin t).phase = .idle) : GoneFar (s.awaitDrain fin) := by
  unfold State.awaitDrain
  rcases hd : s.transport.drain s.drainLeft.toNat with ⟨vs, t⟩
  simp only
  split
  · exact goneFar_rest .host (hfin _)
  · rename_i hleft
    have hread : t.read = none := by
      have h := Transport.read_of_drain_short (n := s.drainLeft.toNat) (t := s.transport)
      simp only [hd] at h
      exact h (by omega)
    have hleft' : BitVec.ofNat 16 (s.drainLeft.toNat - vs.length) ≠ 0#16 := by bv_omega
    refine goneFar_wait (ch := .tRead) ?_
    rcases hp with hp | hp <;> simp [State.waitingOn, hp, hread, hleft']

/-! ### The operations -/

theorem goneFar_beginAwait {s : State} (hp : s.phase = .begin1) : GoneFar (beginAwait s) := by
  unfold beginAwait
  split
  · exact goneFar_wait (ch := .tBegin) (by simp [State.waitingOn, *])
  · exact goneFar_rest .host rfl

theorem goneFar_pollStep6 (s : State) : GoneFar (pollStep6 s) := goneFar_rest .host rfl

theorem goneFar_awaitHandler {s : State} (hp : s.phase = .dispatch) : GoneFar (awaitHandler s) := by
  unfold awaitHandler
  split
  · exact goneFar_pollStep6 _
  · exact goneFar_rest .handler hp
  · exact goneFar_rest .handler hp

theorem goneFar_pollStep5 (s : State) : GoneFar (pollStep5 s) := by
  unfold pollStep5
  split
  · split
    · exact goneFar_byteMissing _
    · exact goneFar_awaitHandler rfl
  · exact goneFar_pollStep6 s

theorem goneFar_pollStep4 {s : State} (hp : s.phase = .poll4) : GoneFar (pollStep4 s) := by
  refine goneFar_awaitReadBytes (fun h => by simp [State.waitingOn, hp, h]) fun _ _ _ => ?_
  dsimp only
  split
  · exact goneFar_rest .host rfl
  · exact goneFar_pollStep5 _

theorem goneFar_pollStep3 {s : State} (hp : s.phase = .poll3) : GoneFar (pollStep3 s) := by
  unfold pollStep3
  split
  · exact goneFar_wait (ch := .aAcquire) (by simp [State.waitingOn, *])
  · dsimp only
    split
    · exact goneFar_rest .host rfl
    · exact goneFar_pollStep4 rfl

theorem goneFar_pollDrain {s : State} (hp : s.phase = .poll2) : GoneFar (pollDrain s) :=
  goneFar_awaitDrain (.inl hp) fun _ => rfl

theorem goneFar_pollStep2 (s : State) : GoneFar (pollStep2 s) := by
  unfold pollStep2
  split
  · exact goneFar_pollDrain rfl
  · exact goneFar_pollStep3 rfl

theorem goneFar_pollStep1 {s : State} (hp : s.phase = .poll1) : GoneFar (pollStep1 s) :=
  goneFar_awaitHeader (fun h => by simp [State.waitingOn, hp, h]) (fun _ => rfl) goneFar_pollStep2

theorem goneFar_pollStep0 {s : State} (hp : s.phase = .poll0) : GoneFar (pollStep0 s) := by
  unfold pollStep0
  split
  · exact goneFar_wait (ch := .tAvailable) (by simp [State.waitingOn, *])
  · dsimp only
    split
    · exact goneFar_pollStep1 rfl
    · exact goneFar_rest .host rfl

theorem goneFar_recvStep4 (s : State) : GoneFar (recvStep4 s) := by
  unfold recvStep4
  split
  · exact goneFar_byteMissing _
  · split
    · exact goneFar_rest .host rfl
    · exact goneFar_rest .host rfl

theorem goneFar_recvStep3 {s : State} (hp : s.phase = .recv3) : GoneFar (recvStep3 s) := by
  refine goneFar_awaitReadBytes (fun h => by simp [State.waitingOn, hp, h]) fun _ _ _ => ?_
  dsimp only
  split
  · exact goneFar_rest .host rfl
  · exact goneFar_recvStep4 _

theorem goneFar_recvDrain {s : State} (hp : s.phase = .recv2) : GoneFar (recvDrain s) :=
  goneFar_awaitDrain (.inr hp) fun _ => rfl

theorem goneFar_recvStep2 (s : State) : GoneFar (recvStep2 s) := by
  unfold recvStep2
  split
  · exact goneFar_recvDrain rfl
  · exact goneFar_recvStep3 rfl

theorem goneFar_recvStep1 {s : State} (hp : s.phase = .recv1) : GoneFar (recvStep1 s) :=
  goneFar_awaitHeader (fun h => by simp [State.waitingOn, hp, h]) (fun _ => rfl) goneFar_recvStep2

theorem goneFar_sendStep5 {s : State} {c : Caller} (hp : s.phase = .send5 c) : GoneFar (sendStep5 c s) := by
  unfold sendStep5
  split
  · exact goneFar_wait (ch := .tEndTransmission) (by simp [State.waitingOn, *])
  · exact goneFar_rest c rfl

theorem goneFar_sendStep4 {s : State} {c : Caller} (hp : s.phase = .send4 c) : GoneFar (sendStep4 c s) := by
  unfold sendStep4
  split
  · exact goneFar_wait (ch := .tWrite) (by simp [State.waitingOn, *])
  · exact goneFar_sendStep5 rfl

theorem goneFar_sendStep3 {s : State} {c : Caller} (hp : s.phase = .send3 c) : GoneFar (sendStep3 c s) := by
  unfold sendStep3
  split
  · exact goneFar_wait (ch := .tWrite) (by simp [State.waitingOn, *])
  · split
    · exact goneFar_byteMissing _
    · exact goneFar_sendStep4 rfl

theorem goneFar_sendStep2 {s : State} {c : Caller} (hp : s.phase = .send2 c) : GoneFar (sendStep2 c s) := by
  unfold sendStep2
  split
  · exact goneFar_wait (ch := .tBeginTransmission) (by simp [State.waitingOn, *])
  · exact goneFar_sendStep3 rfl

theorem goneFar_sendStep1 (c : Caller) (s : State) : GoneFar (sendStep1 c s) := by
  unfold sendStep1
  split
  · exact goneFar_byteMissing _
  · exact goneFar_sendStep2 rfl

/-! ### Commands and steps -/

theorem goneFar_exec (i : Instr) {s : State} {c : Caller} (hp : s.phase = c.restPhase) : GoneFar (exec i s) :=
  match i with
  | .begin => goneFar_acceptHost hp (goneFar_beginAwait rfl)
  | .haserr => goneFar_accept hp (goneFar_rest c hp)
  | .geterr => goneFar_accept hp (goneFar_rest c hp)
  | .seth _ => goneFar_accept hp (goneFar_rest c hp)
  | .poll => goneFar_acceptHost hp (goneFar_gate hp (goneFar_pollStep0 rfl))
  | .recv _ => goneFar_acceptHost hp (goneFar_gate hp (goneFar_recvStep1 rfl))
  | .send _ _ => goneFar_accept hp (goneFar_gate hp (goneFar_sendStep1 c _))
  | .recvl _ => goneFar_accept hp (goneFar_reject hp ..)

theorem goneFar_runCommand (cmd : Command) {s : State} {c : Caller} (hp : s.phase = c.restPhase) :
    GoneFar (runCommand cmd s) := by
  unfold runCommand
  split
  · exact goneFar_exec _ (by simpa using hp)
  · exact goneFar_accept hp (goneFar_reject hp ..)

theorem goneFar_resume {s : State} (idle : s.phase ≠ .idle) : GoneFar (resume s) := by
  unfold resume
  cases hp : s.phase with
  | idle => exact absurd hp idle
  | begin1 => exact goneFar_beginAwait hp
  | poll0 => exact goneFar_pollStep0 hp
  | poll1 => exact goneFar_pollStep1 hp
  | poll2 => exact goneFar_pollDrain hp
  | poll3 => exact goneFar_pollStep3 hp
  | poll4 => exact goneFar_pollStep4 hp
  | poll5 => exact goneFar_pollStep5 s
  | dispatch => exact goneFar_awaitHandler hp
  | poll6 => exact goneFar_pollStep6 s
  | recv1 => exact goneFar_recvStep1 hp
  | recv2 => exact goneFar_recvDrain hp
  | recv3 => exact goneFar_recvStep3 hp
  | recv4 => exact goneFar_recvStep4 s
  | send1 c => exact goneFar_sendStep1 c s
  | send2 c => exact goneFar_sendStep2 hp
  | send3 c => exact goneFar_sendStep3 hp
  | send4 c => exact goneFar_sendStep4 hp
  | send5 c => exact goneFar_sendStep5 hp

theorem step_atRest {s : State} (hp : s.phase = .idle) (hc : s.cmds = []) : step s = .fault .atRest := by
  simp [step, nextMove, State.waitingOn, hp, hc]

/-- A step that neither waits nor rests goes as far as the answers go. -/
theorem goneFar_step {s : State} (hw : s.waitingOn = none) (hr : ¬(s.phase = .idle ∧ s.cmds = [])) :
    GoneFar (step s) := by
  unfold step nextMove
  rw [hw]
  dsimp only
  split
  · exact absurd ⟨‹_›, ‹_›⟩ hr
  · exact goneFar_runCommand _ (c := .host) ‹_›
  · exact goneFar_runCommand _ (c := .handler) ‹_›
  · rename_i hnil hcons _
    refine goneFar_resume fun hp => ?_
    cases hc : s.cmds with
    | nil => exact hnil hp hc
    | cons c rest => exact hcons c rest hp hc

/-- What a step can be: a wait, rest, or a step that goes as far as the answers go. -/
theorem step_cases (s : State) :
    (∃ ch, s.waitingOn = some ch ∧ step s = .fault (.waiting ch)) ∨
    ((s.phase = .idle ∧ s.cmds = []) ∧ step s = .fault .atRest) ∨ GoneFar (step s) := by
  cases hw : s.waitingOn with
  | some ch => exact .inl ⟨ch, rfl, step_waiting hw⟩
  | none =>
    by_cases hr : s.phase = .idle ∧ s.cmds = []
    · exact .inr (.inl ⟨hr, step_atRest hr.1 hr.2⟩)
    · exact .inr (.inr (goneFar_step hw hr))

theorem step_waiting_iff {s : State} {ch : Channel} : step s = .fault (.waiting ch) ↔ s.waitingOn = some ch := by
  refine ⟨fun h => ?_, step_waiting⟩
  rcases step_cases s with ⟨ch', hw, hs⟩ | ⟨-, hs⟩ | hfar
  · simpa [hw, hs] using h
  · simp [hs] at h
  · exact (h ▸ hfar : GoneFar (.fault (.waiting ch))).elim

theorem step_atRest_iff {s : State} : step s = .fault .atRest ↔ s.phase = .idle ∧ s.cmds = [] := by
  refine ⟨fun h => ?_, fun ⟨hp, hc⟩ => step_atRest hp hc⟩
  rcases step_cases s with ⟨ch, -, hs⟩ | ⟨hr, -⟩ | hfar
  · simp [hs] at h
  · exact hr
  · exact (h ▸ hfar : GoneFar (.fault .atRest)).elim

/-- Settles O58: which channel a phase awaits is read off `waitingOn`; what is left goes as far as the answers go. -/
theorem whenTheEngineWaitsRestsOrStops : Obligations.WhenTheEngineWaitsRestsOrStops := by
  intro s
  refine ⟨?_, ?_, ?_, ?_, ?_, ?_, ?_, ?_, ?_, step_atRest_iff, ?outcomes, ?ends⟩
  case outcomes =>
    rcases step_cases s with ⟨ch, -, hs⟩ | ⟨-, hs⟩ | hfar
    · exact .inr (.inl ⟨_, hs⟩)
    · exact .inr (.inl ⟨_, hs⟩)
    · cases hs : step s with
      | next t => exact .inl ⟨t, rfl⟩
      | fault f => exact .inr (.inl ⟨f, rfl⟩)
      | refused r =>
        rw [hs] at hfar
        rcases hfar with rfl | ⟨sp, rfl⟩
        · exact .inr (.inr (.inl rfl))
        · exact .inr (.inr (.inr ⟨sp, rfl⟩))
  case ends =>
    intro t ht
    rcases step_cases s with ⟨ch, -, hs⟩ | ⟨-, hs⟩ | hfar
    · simp [hs] at ht
    · simp [hs] at ht
    · rw [ht] at hfar
      simpa only [GoneFar, step_waiting_iff] using hfar
  all_goals
    rw [step_waiting_iff, State.waitingOn, show Config.headerSize = 6 from rfl]
    cases s.phase <;> simp

/-! ## Reset -/

/-- Settles O56: nothing is held, open, called or queued, and no operation is in progress. -/
theorem resetMeetsTheInvariants : Obligations.ResetMeetsTheInvariants :=
  ⟨⟨rfl, rfl, rfl, nofun, nofun⟩, ⟨rfl, rfl, fun _ => rfl⟩, rfl, ⟨rfl, nofun⟩, ⟨nofun, nofun, nofun⟩, nofun⟩

/-- Settles O57: each is the field's value in `State.reset`. -/
theorem resetValues : Obligations.ResetValues := ⟨rfl, rfl, rfl, rfl, rfl, rfl⟩

end Sys2Proof.Machine

/-! SUPPORT and proofs of the family 20_memory: the transmission bracket, the size checks and the gate, what RECV writes
of its caller's buffer, and what a move of another agent can end. -/

namespace Sys2Proof.Machine

/-! ## The bracket and the size checks -/

/-- Only the three requests of SEND move the bracket. -/
@[simp] theorem bracketAfter_answer (a : Answer) (b : Option Bool) : bracketAfter b (.answer a) = b := by
  unfold bracketAfter
  split <;> simp_all

@[simp] theorem bracketAfter_request {r : Request} (hbegin : r ≠ .tBeginTransmission)
    (hwrite : ∀ d, r ≠ .tWrite d) (hend : r ≠ .tEndTransmission) (b : Option Bool) :
    bracketAfter b (.request r) = b := by
  unfold bracketAfter
  split <;> simp_all

@[simp] theorem foldl_bracketAfter_drainEvents (left : Nat) (vs : List (Option Byte)) (b : Option Bool) :
    (drainEvents left vs).foldl bracketAfter b = b :=
  foldl_onlyReads bracketAfter b _ (drainEvents_onlyReads left vs) (by simp) (by simp)

@[simp] theorem foldl_bracketAfter_releaseBuffer (s : State) (b : Option Bool) :
    s.releaseBuffer.trace.foldl bracketAfter b = s.trace.foldl bracketAfter b := by
  cases hb : s.bufh with
  | none => rw [State.releaseBuffer_none s hb]
  | some h => simp [State.releaseBuffer_held s h hb]

@[simp] theorem foldl_bracketAfter_firstRead (n : U16) (b : Option Bool) :
    (if n = 0#16 then [] else [Event.request .tRead]).foldl bracketAfter b = b := by
  split <;> simp

/-- Which parts of the size guard speak of a phase. -/
def Phase.sizeGuards (p : Phase) : Bool × Bool × Bool := (p.pollChecked, p.holdsBuffer, p.recvChecked)

/-- A SEND stands under the size guard of the place it returns to. -/
@[simp] theorem sizeGuards_send1 (c : Caller) : (Phase.send1 c).sizeGuards = c.restPhase.sizeGuards := by
  cases c <;> rfl
@[simp] theorem sizeGuards_send2 (c : Caller) : (Phase.send2 c).sizeGuards = c.restPhase.sizeGuards := by
  cases c <;> rfl
@[simp] theorem sizeGuards_send3 (c : Caller) : (Phase.send3 c).sizeGuards = c.restPhase.sizeGuards := by
  cases c <;> rfl
@[simp] theorem sizeGuards_send4 (c : Caller) : (Phase.send4 c).sizeGuards = c.restPhase.sizeGuards := by
  cases c <;> rfl
@[simp] theorem sizeGuards_send5 (c : Caller) : (Phase.send5 c).sizeGuards = c.restPhase.sizeGuards := by
  cases c <;> rfl

@[simp] theorem inBracket_restPhase (c : Caller) : c.restPhase.inBracket = false := by cases c <;> rfl

theorem State.bracketDiscipline.append {s t : State} {es : List Event} (hs : s.bracketDiscipline)
    (trace : t.trace = s.trace ++ es)
    (bracket : es.foldl bracketAfter (some s.phase.inBracket) = some t.phase.inBracket) : t.bracketDiscipline := by
  rw [State.bracketDiscipline, trace, List.foldl_append, hs, bracket]

namespace State.sizeGuard

/-- In a phase like rest nothing is guarded. -/
theorem unguarded {t : State} (h : t.phase.sizeGuards = Phase.idle.sizeGuards) : t.sizeGuard := by
  simp only [Phase.sizeGuards, Prod.mk.injEq] at h
  obtain ⟨poll, buffer, recv⟩ := h
  rw [State.sizeGuard, poll, buffer, recv]
  exact ⟨nofun, nofun, nofun⟩

/-- An update that leaves alone what is guarded; the operand counts in a RECV only. -/
theorem keep {s t : State} (hs : s.sizeGuard) (guards : t.phase.sizeGuards = s.phase.sizeGuards)
    (same : t.hdr = s.hdr ∧ t.pbuf = s.pbuf ∧ (s.phase.recvChecked = true → t.cmdArg = s.cmdArg)) : t.sizeGuard := by
  simp only [Phase.sizeGuards, Prod.mk.injEq] at guards
  obtain ⟨poll, buffer, recv⟩ := guards
  obtain ⟨hdr, pbuf, cmdArg⟩ := same
  obtain ⟨hpoll, hbuffer, hrecv⟩ := hs
  rw [State.sizeGuard, poll, buffer, recv, hdr, pbuf]
  exact ⟨hpoll, hbuffer, fun h => by rw [cmdArg h]; exact hrecv h⟩

/-- Past the check of POLL the size is within the limit. -/
theorem of_pollFits {s : State} (hle : s.hdr.size.toNat ≤ 500) (r : Request) : (s.request .poll3 r).sizeGuard :=
  ⟨fun _ => hle, nofun, nofun⟩

/-- Past the check of RECV the size is within the limit and the caller's capacity. -/
theorem of_recvFits {s : State} (hle : s.hdr.size.toNat ≤ 500) (hcap : s.hdr.size.toNat ≤ s.cmdArg.toNat)
    (r : Request) : (s.request .recv3 r).sizeGuard :=
  ⟨nofun, nofun, fun _ => ⟨hle, hcap⟩⟩

/-- A granted buffer is empty, and the size it was asked for has passed the check. -/
theorem take {s : State} (hs : s.sizeGuard) (hp : s.phase = .poll3) (a : Allocator) (es : List Event) (h : Handle)
    (r : Request) :
    (State.request { s with allocator := a, trace := s.trace ++ es, bufh := some h, pbuf := [] }
      .poll4 r).sizeGuard := by
  obtain ⟨hpoll, -, -⟩ := hs
  exact ⟨fun _ => hpoll (by rw [hp]; rfl), fun _ => nofun, nofun⟩

/-- The payload's bytes stand below its size. -/
theorem fill {s : State} (hs : s.sizeGuard) (t : Transport) (es : List Event) {d : List Byte}
    (hd : d.length = s.hdr.size.toNat) :
    State.sizeGuard { s with transport := t, trace := s.trace ++ es, pbuf := s.pbuf.writeBytes 0 d } := by
  obtain ⟨hpoll, hbuffer, hrecv⟩ := hs
  refine ⟨hpoll, fun h c hc => ?_, hrecv⟩
  rcases Memory.mem_writeBytes d s.pbuf 0 c hc with ⟨-, hlt⟩ | hold
  · simpa [hd] using hlt
  · exact hbuffer h c hold

end State.sizeGuard

/-- From `s` to `t` both the bracket discipline (20_memory R59) and the size guard (40_datapath_units R102, R113) are
kept. -/
structure KeepsGuards (s t : State) : Prop where
  bracket : s.bracketDiscipline → t.bracketDiscipline
  size : s.sizeGuard → t.sizeGuard

namespace KeepsGuards

theorem refl (s : State) : KeepsGuards s s := ⟨id, id⟩

theorem trans {s t u : State} (h : KeepsGuards s t) (k : KeepsGuards t u) : KeepsGuards s u :=
  ⟨k.bracket ∘ h.bracket, k.size ∘ h.size⟩

/-- The rest of an operation, after an update. -/
theorem after {s t : State} {r : Result} (hr : AllNext (KeepsGuards t) r) (h : KeepsGuards s t) :
    AllNext (KeepsGuards s) r :=
  hr.mono fun _ => h.trans

/-- An update that issues none of SEND's requests and neither enters nor leaves a bracket. -/
theorem silent {s t : State} (size : s.sizeGuard → t.sizeGuard)
    (phase : t.phase.inBracket = s.phase.inBracket)
    (trace : t.trace.foldl bracketAfter (some false) = s.trace.foldl bracketAfter (some false) := by simp) :
    KeepsGuards s t :=
  ⟨fun hs => by rw [State.bracketDiscipline, trace, phase]; exact hs, size⟩

/-- A silent update that leaves alone what is guarded. -/
theorem within {s t : State} (phase : t.phase = s.phase := by rfl)
    (trace : t.trace.foldl bracketAfter (some false) = s.trace.foldl bracketAfter (some false) := by simp)
    (same : t.hdr = s.hdr ∧ t.pbuf = s.pbuf ∧ (s.phase.recvChecked = true → t.cmdArg = s.cmdArg) := by simp) :
    KeepsGuards s t :=
  silent (fun hs => hs.keep (by rw [phase]) same) (by rw [phase]) trace

/-- A silent update outside a bracket, to a phase in which nothing is guarded. -/
theorem unguarded {s t : State} (hs : s.phase.inBracket = false)
    (guards : t.phase.sizeGuards = Phase.idle.sizeGuards := by rfl) (ht : t.phase.inBracket = false := by rfl)
    (trace : t.trace.foldl bracketAfter (some false) = s.trace.foldl bracketAfter (some false) := by simp) :
    KeepsGuards s t :=
  silent (fun _ => .unguarded guards) (ht.trans hs.symm) trace

/-- An update of a SEND. The host's stands under no size guard, a handler's leaves what is guarded alone. -/
theorem send {s t : State} {es : List Event} (c : Caller) (hs : s.phase.sizeGuards = c.restPhase.sizeGuards)
    (ht : t.phase.sizeGuards = c.restPhase.sizeGuards)
    (same : (c = .handler → t.hdr = s.hdr) ∧ t.pbuf = s.pbuf) (trace : t.trace = s.trace ++ es)
    (bracket : es.foldl bracketAfter (some s.phase.inBracket) = some t.phase.inBracket) : KeepsGuards s t := by
  refine ⟨fun h => h.append trace bracket, fun h => ?_⟩
  obtain ⟨hdr, pbuf⟩ := same
  cases c with
  | host => exact .unguarded ht
  | handler =>
    have hrecv : s.phase.recvChecked = false := congrArg (fun g => g.2.2) hs
    exact h.keep (ht.trans hs.symm) ⟨hdr rfl, pbuf, by simp [hrecv]⟩

end KeepsGuards

section

variable {s : State}

theorem keepsGuards_beginAwait (hp : s.phase.inBracket = false) : AllNext (KeepsGuards s) (beginAwait s) :=
  allNext_beginAwait (.refl s) fun _ _ => .unguarded hp

theorem keepsGuards_pollStep6 (hp : s.phase.inBracket = false) : AllNext (KeepsGuards s) (pollStep6 s) :=
  .unguarded hp

theorem keepsGuards_awaitHandler (hp : s.phase = .dispatch) : AllNext (KeepsGuards s) (awaitHandler s) :=
  allNext_awaitHandler (.refl s) fun _ _ => KeepsGuards.after (keepsGuards_pollStep6 (by rw [hp]; rfl)) .within

/-- The call goes from one step that holds the payload to another. -/
theorem keepsGuards_pollStep5 (hp : s.phase = .poll4 ∨ s.phase = .poll5) : AllNext (KeepsGuards s) (pollStep5 s) :=
  have bracket : s.phase.inBracket = false := by rcases hp with hp | hp <;> rw [hp] <;> rfl
  have guards : s.phase.sizeGuards = Phase.dispatch.sizeGuards := by rcases hp with hp | hp <;> rw [hp] <;> rfl
  allNext_pollStep5
    (fun _ _ _ _ =>
      KeepsGuards.after (keepsGuards_awaitHandler rfl) (.silent (fun hs => hs.keep guards.symm (by simp)) bracket.symm))
    (fun _ => keepsGuards_pollStep6 bracket)

theorem keepsGuards_pollStep4 (hp : s.phase = .poll4) : AllNext (KeepsGuards s) (pollStep4 s) :=
  allNext_pollStep4 (.refl s)
    (fun _ _ _ _ _ _ => .unguarded (by rw [hp]; rfl))
    (fun _ _ _ hd =>
      KeepsGuards.after (keepsGuards_pollStep5 (.inl hp)) (.silent (fun hs => hs.fill _ _ hd) rfl))

theorem keepsGuards_pollStep3 (hp : s.phase = .poll3) : AllNext (KeepsGuards s) (pollStep3 s) :=
  allNext_pollStep3 (.refl s)
    (fun _ _ => .unguarded (by rw [hp]; rfl))
    (fun h a _ =>
      KeepsGuards.after (keepsGuards_pollStep4 rfl) (.silent (fun hs => hs.take hp a _ h _) (by rw [hp]; rfl)))

/-- A drain stays in its step, or ends the operation. -/
theorem keepsGuards_drain {fin : State → State} (hp : s.phase = .poll2 ∨ s.phase = .recv2)
    (hfin : ∀ t, t.phase.inBracket = false → KeepsGuards t (fin t)) : AllNext (KeepsGuards s) (s.awaitDrain fin) :=
  allNext_awaitDrain (fun _ _ _ _ => .within) fun _ _ _ _ =>
    KeepsGuards.trans .within (hfin _ (by rcases hp with hp | hp <;> simp only [hp] <;> rfl))

theorem keepsGuards_pollDrain (hp : s.phase = .poll2) : AllNext (KeepsGuards s) (pollDrain s) :=
  keepsGuards_drain (.inl hp) fun _ ht => .unguarded ht

theorem keepsGuards_pollStep2 (hp : s.phase.inBracket = false) : AllNext (KeepsGuards s) (pollStep2 s) :=
  allNext_pollStep2
    (fun _ => KeepsGuards.after (keepsGuards_pollDrain rfl) (.unguarded hp))
    (fun hle => KeepsGuards.after (keepsGuards_pollStep3 rfl) (.silent (fun _ => .of_pollFits hle _) hp.symm))

theorem keepsGuards_pollStep1 (hp : s.phase = .poll1) : AllNext (KeepsGuards s) (pollStep1 s) :=
  have bracket : s.phase.inBracket = false := by rw [hp]; rfl
  allNext_pollStep1 (.refl s)
    (fun _ _ _ _ _ _ => .unguarded bracket)
    (fun _ _ _ _ _ =>
      KeepsGuards.after (keepsGuards_pollStep2 bracket) (.unguarded bracket (by simp only [hp]; rfl) bracket))

theorem keepsGuards_pollStep0 (hp : s.phase.inBracket = false) : AllNext (KeepsGuards s) (pollStep0 s) :=
  allNext_pollStep0 (.refl s)
    (fun _ _ => .unguarded hp)
    (fun _ _ => KeepsGuards.after (keepsGuards_pollStep1 rfl) (.unguarded hp))

theorem keepsGuards_recvStep4 (hp : s.phase.inBracket = false) : AllNext (KeepsGuards s) (recvStep4 s) :=
  allNext_recvStep4 (fun _ _ _ => .unguarded hp) (fun _ _ _ => .unguarded hp)

theorem keepsGuards_recvStep3 (hp : s.phase.inBracket = false) : AllNext (KeepsGuards s) (recvStep3 s) :=
  allNext_recvStep3 (.refl s)
    (fun _ _ _ _ _ _ => .unguarded hp)
    (fun _ _ _ _ => KeepsGuards.after (keepsGuards_recvStep4 hp) .within)

theorem keepsGuards_recvDrain (hp : s.phase = .recv2) : AllNext (KeepsGuards s) (recvDrain s) :=
  keepsGuards_drain (.inr hp) fun _ ht => .unguarded ht

theorem keepsGuards_recvStep2 (hp : s.phase.inBracket = false) : AllNext (KeepsGuards s) (recvStep2 s) :=
  allNext_recvStep2
    (fun _ => KeepsGuards.after (keepsGuards_recvDrain rfl) (.unguarded hp))
    (fun hle hcap =>
      KeepsGuards.after (keepsGuards_recvStep3 rfl) (.silent (fun _ => .of_recvFits hle hcap _) hp.symm))

theorem keepsGuards_recvStep1 (hp : s.phase = .recv1) : AllNext (KeepsGuards s) (recvStep1 s) :=
  have bracket : s.phase.inBracket = false := by rw [hp]; rfl
  allNext_recvStep1 (.refl s)
    (fun _ _ _ _ _ _ => .unguarded bracket)
    (fun _ _ _ _ _ =>
      KeepsGuards.after (keepsGuards_recvStep2 bracket) (.unguarded bracket (by simp only [hp]; rfl) bracket))

variable {c : Caller}

theorem keepsGuards_sendStep5 (hp : s.phase = .send5 c) : AllNext (KeepsGuards s) (sendStep5 c s) :=
  allNext_sendStep5 (.refl s) fun _ _ => .send (es := []) c (by simp [hp]) rfl (by simp) (by simp) (by simp [hp]; rfl)

theorem keepsGuards_sendStep4 (hp : s.phase = .send4 c) : AllNext (KeepsGuards s) (sendStep4 c s) :=
  allNext_sendStep4 (.refl s) fun _ _ =>
    KeepsGuards.after (keepsGuards_sendStep5 rfl) (.send c (by simp [hp]) (by simp) (by simp) rfl (by simp [hp]; rfl))

theorem keepsGuards_sendStep3 (hp : s.phase = .send3 c) : AllNext (KeepsGuards s) (sendStep3 c s) :=
  allNext_sendStep3 (.refl s) fun _ _ _ _ =>
    KeepsGuards.after (keepsGuards_sendStep4 rfl) (.send c (by simp [hp]) (by simp) (by simp) rfl (by simp [hp]; rfl))

theorem keepsGuards_sendStep2 (hp : s.phase = .send2 c) : AllNext (KeepsGuards s) (sendStep2 c s) :=
  allNext_sendStep2 (.refl s) fun _ _ =>
    KeepsGuards.after (keepsGuards_sendStep3 rfl) (.send c (by simp [hp]) (by simp) (by simp) rfl (by simp [hp]; rfl))

theorem keepsGuards_sendStep1 (hp : s.phase = .send1 c) : AllNext (KeepsGuards s) (sendStep1 c s) :=
  allNext_sendStep1 fun _ _ =>
    KeepsGuards.after (keepsGuards_sendStep2 rfl)
      (.send c (by simp [hp]) (by simp) ⟨by rintro rfl; rfl, by simp⟩ (by simp; rfl) (by simp [hp]; rfl))

end

/-! ### Commands and steps -/

theorem keepsGuards_exec (i : Instr) (s : State) : AllNext (KeepsGuards s) (exec i s) := by
  have rejected (c : Caller) (why : Rejection) (k : ResponseKind) : KeepsGuards s (s.reject c why k) :=
    .within (by simp)
  have rest (hp : s.phase = .idle) : s.phase.inBracket = false := by rw [hp]; rfl
  cases i with
  | begin =>
    exact allNext_execBegin (fun _ => rejected ..)
      fun hp => KeepsGuards.after (keepsGuards_beginAwait rfl) (.unguarded (rest hp))
  | haserr => exact allNext_accept fun _ _ => .within
  | geterr => exact allNext_accept fun _ _ => .within
  | seth ref => exact allNext_accept fun _ _ => .within
  | poll =>
    exact allNext_execPoll (fun _ => rejected ..) (fun _ _ => rejected ..)
      fun hp _ => KeepsGuards.after (keepsGuards_pollStep0 rfl) (.unguarded (rest hp))
  | recv n =>
    exact allNext_execRecv (fun _ => rejected ..) (fun _ _ => rejected ..)
      fun hp _ => KeepsGuards.after (keepsGuards_recvStep1 rfl) (.unguarded (rest hp))
  | send dst n =>
    exact allNext_execSend (fun _ _ _ => rejected ..) fun c hp _ =>
      KeepsGuards.after (keepsGuards_sendStep1 rfl)
        (.send (es := []) c (by rw [hp]) (by simp) (by simp) (by simp) (by simp [hp]; rfl))
  | recvl rest => exact allNext_accept fun _ _ => rejected ..

/-- A command taken off its list runs. -/
theorem keepsGuards_runCommand {s t : State} (c : Command) (h : KeepsGuards s t) :
    AllNext (KeepsGuards s) (runCommand c t) :=
  allNext_runCommand
    (fun i _ => KeepsGuards.after (keepsGuards_exec i _) (h.trans (.within (by simp))))
    (fun _ _ _ _ => h.trans (.within (by simp)))

theorem keepsGuards_resume (s : State) : AllNext (KeepsGuards s) (resume s) := by
  unfold resume
  cases hp : s.phase with
  | idle => trivial
  | begin1 => exact keepsGuards_beginAwait (by rw [hp]; rfl)
  | poll0 => exact keepsGuards_pollStep0 (by rw [hp]; rfl)
  | poll1 => exact keepsGuards_pollStep1 hp
  | poll2 => exact keepsGuards_pollDrain hp
  | poll3 => exact keepsGuards_pollStep3 hp
  | poll4 => exact keepsGuards_pollStep4 hp
  | poll5 => exact keepsGuards_pollStep5 (.inr hp)
  | dispatch => exact keepsGuards_awaitHandler hp
  | poll6 => exact keepsGuards_pollStep6 (by rw [hp]; rfl)
  | recv1 => exact keepsGuards_recvStep1 hp
  | recv2 => exact keepsGuards_recvDrain hp
  | recv3 => exact keepsGuards_recvStep3 (by rw [hp]; rfl)
  | recv4 => exact keepsGuards_recvStep4 (by rw [hp]; rfl)
  | send1 c => exact keepsGuards_sendStep1 hp
  | send2 c => exact keepsGuards_sendStep2 hp
  | send3 c => exact keepsGuards_sendStep3 hp
  | send4 c => exact keepsGuards_sendStep4 hp
  | send5 c => exact keepsGuards_sendStep5 hp

theorem keepsGuards_step (s : State) : AllNext (KeepsGuards s) (step s) :=
  allNext_step
    (fun c _ _ _ => keepsGuards_runCommand c .within)
    (fun c _ _ _ => keepsGuards_runCommand c .within)
    (fun _ => keepsGuards_resume s)

/-- Settles O53: a bracket opens, is written in and ends in the steps of a SEND, and no other update asks for any of
it. -/
theorem stepKeepsBracketDiscipline : Obligations.StepKeepsBracketDiscipline := fun s _ hs hstep =>
  ((keepsGuards_step s).of_eq hstep).bracket hs

/-! ## The gate -/

/-- No operation starts from rest behind the gate while the status is `NotInitialized`. -/
theorem exec_gated (i : Instr) {s : State} (hp : s.phase = .idle) :
    AllNext (fun t => t.phase.gated = true → s.status ≠ .notInitialized) (exec i s) := by
  have stays {t : State} (ht : t.phase = s.phase) : t.phase.gated = true → s.status ≠ .notInitialized := by
    simp [ht, hp, Phase.gated]
  have past {r : Result} (hs : s.status ≠ .notInitialized) :
      AllNext (fun t => t.phase.gated = true → s.status ≠ .notInitialized) r := .intro fun _ _ _ => hs
  cases i with
  | begin => exact allNext_execBegin (fun _ => stays (by simp)) fun _ => allNext_beginAwait nofun fun _ _ => nofun
  | haserr => exact allNext_accept fun _ _ => stays rfl
  | geterr => exact allNext_accept fun _ _ => stays rfl
  | seth ref => exact allNext_accept fun _ _ => stays rfl
  | poll => exact allNext_execPoll (fun _ => stays (by simp)) (fun _ _ => stays (by simp)) fun _ => past
  | recv n => exact allNext_execRecv (fun _ => stays (by simp)) (fun _ _ => stays (by simp)) fun _ => past
  | send dst n => exact allNext_execSend (fun _ _ _ => stays (by simp)) fun _ _ => past
  | recvl rest => exact allNext_accept fun _ _ => stays (by simp)

/-- A step that ends behind the gate finds a status other than `NotInitialized`, there already or at the gate. -/
theorem step_gated {s : State} (hs : s.gateGuard) :
    AllNext (fun t => t.phase.gated = true → s.status ≠ .notInitialized) (step s) := by
  cases hg : s.phase.gated with
  | true => exact .intro fun _ _ _ => hs hg
  | false =>
    refine allNext_step ?host ?handler ?go
    case host =>
      intro c rest hp _
      refine allNext_runCommand (fun i _ => ?_) (fun _ _ _ _ => by simp [hp, Phase.gated])
      simpa using exec_gated i (s := State.handOver { s with cmds := rest } i c.space) (by simpa using hp)
    case handler =>
      intro _ _ hp
      simp [hp, Phase.gated] at hg
    case go =>
      intro hidle
      have hp : s.phase = .begin1 := by cases hp : s.phase <;> simp_all [Phase.gated]
      rw [resume, hp]
      exact allNext_beginAwait (by simp [hg]) fun _ _ => nofun

/-- Settles O55: the size guard is one of the two that every update keeps; a status other than `NotInitialized`, once
found at the gate, is never lost again. -/
theorem stepKeepsSizeAndGateGuards : Obligations.StepKeepsSizeAndGateGuards := by
  refine ⟨fun s _ hs hstep => ((keepsGuards_step s).of_eq hstep).size hs, fun s t hs hstep hg => ?_⟩
  obtain ⟨-, -, hstatus⟩ := lifetimeRegistersAreMonotone s t hstep
  exact hstatus ((step_gated hs).of_eq hstep hg)

/-! ## What RECV leaves alone -/

/-- `t` can follow `s` in a RECV whose header is loaded (43_receive R160, from step 2 on): the header and what RECV does
not write are the same, the status is the same or one of its errors, and `CBUF` is the same from offset `n` upward. -/
structure RecvKeeps (n : Nat) (s t : State) : Prop where
  frame :
    { t with
        hdr := s.hdr, localId := s.localId, handlerValid := s.handlerValid, handlerRef := s.handlerRef, bufh := s.bufh
        cmdDst := s.cmdDst, cmdArg := s.cmdArg, nestedHdr := s.nestedHdr, pbuf := s.pbuf, src := s.src, tx := s.tx
        allocator := s.allocator, handler := s.handler, cmds := s.cmds, crcUnit := s.crcUnit
        freeSource := s.freeSource } = t
  status : t.status = s.status ∨ t.status ∈ [.badHeader, .packetOverSize, .badPacket, .crcError]
  cbuf : ∀ a, n ≤ a → t.cbuf.read a = s.cbuf.read a

namespace RecvKeeps

theorem refl (n : Nat) (s : State) : RecvKeeps n s s := ⟨rfl, .inl rfl, fun _ _ => rfl⟩

theorem trans {n : Nat} {s t u : State} (h : RecvKeeps n s t) (k : RecvKeeps n t u) : RecvKeeps n s u where
  frame := by
    have e := k.frame
    rw [← h.frame] at e
    exact e
  status := by
    rcases k.status with same | written
    · exact same ▸ h.status
    · exact .inr written
  cbuf a ha := (k.cbuf a ha).trans (h.cbuf a ha)

/-- The rest of an operation, after an update. -/
theorem after {n : Nat} {s t : State} {r : Result} (hr : AllNext (RecvKeeps n t) r) (h : RecvKeeps n s t) :
    AllNext (RecvKeeps n s) r :=
  hr.mono fun _ => h.trans

/-- What RECV writes besides the status, the header and `CBUF`. -/
theorem record (n : Nat) (s : State) (p : Phase) (left : U16) (t : Transport) (es : List Event)
    (rs : List (Caller × Response)) (why : List Rejection) (draws : Nat) :
    RecvKeeps n s { s with phase := p, drainLeft := left, transport := t, trace := es, responses := rs, rejected := why,
                           draws := draws } :=
  ⟨rfl, .inl rfl, fun _ _ => rfl⟩

/-- The same with one of RECV's errors stored. -/
theorem error (n : Nat) (s : State) {st : Status} (hst : st ∈ [.badHeader, .packetOverSize, .badPacket, .crcError])
    (p : Phase) (left : U16) (t : Transport) (es : List Event) (rs : List (Caller × Response)) (draws : Nat) :
    RecvKeeps n s { s with status := st, phase := p, drainLeft := left, transport := t, trace := es, responses := rs,
                           draws := draws } :=
  ⟨rfl, .inr hst, fun _ _ => rfl⟩

/-- The bytes of a payload read go below their number (40_datapath_units R107). -/
theorem fill {n : Nat} (s : State) (t : Transport) (k : U16) {d : List Byte} (hd : d.length ≤ n) :
    RecvKeeps n s { s with transport := t, trace := s.trace ++ [.answer (.tReadBytes k d)],
                           cbuf := s.cbuf.writeBytes 0 d } where
  frame := rfl
  status := .inl rfl
  cbuf a ha := Memory.read_writeBytes_outside d _ 0 a (.inr (by omega))

end RecvKeeps

section

variable {n : Nat} (s : State)

theorem recvKeeps_recvStep4 : AllNext (RecvKeeps n s) (recvStep4 s) :=
  allNext_recvStep4 (fun _ _ _ => .record ..) (fun _ _ _ => .error n s (by simp) ..)

theorem recvKeeps_recvDrain : AllNext (RecvKeeps n s) (recvDrain s) :=
  allNext_awaitDrain (fun _ _ _ _ => .record ..) (fun _ _ _ _ => .record ..)

theorem recvKeeps_recvStep3 (hn : s.hdr.size.toNat ≤ n) : AllNext (RecvKeeps n s) (recvStep3 s) :=
  allNext_recvStep3 (.refl n s)
    (fun k d t _ hk hd =>
      have hle : d.length ≤ n := hd ▸ (Nat.le_of_lt hk).trans hn
      (RecvKeeps.fill s t k hle).trans (.error n _ (by simp) ..))
    (fun _ t _ hd => RecvKeeps.after (recvKeeps_recvStep4 _) (.fill s t _ (hd.le.trans hn)))

/-- A payload is read only when its size is within the limit and the capacity, so those bound `CBUF` too. -/
theorem recvKeeps_recvStep2 (hn : min s.hdr.size.toNat (min 500 s.cmdArg.toNat) ≤ n) :
    AllNext (RecvKeeps n s) (recvStep2 s) :=
  allNext_recvStep2
    (fun _ => RecvKeeps.after (recvKeeps_recvDrain _) (.error n s (by simp) ..))
    (fun hle hcap => RecvKeeps.after (recvKeeps_recvStep3 _ (by simp; omega)) (.record ..))

end

/-- What a whole RECV with the operand `capacity` can do, when payloads above `limit` are not read: it loads its operand
and a header, or leaves those it finds, and keeps `CBUF` from that header's size, and from `limit`, upward. -/
def RecvAdvances (capacity : U16) (limit : Nat) (s t : State) : Prop :=
  ∃ h arg, (arg = s.cmdArg ∨ arg = capacity) ∧
    RecvKeeps (min h.size.toNat limit) { s with hdr := h, cmdArg := arg } t

section

variable {capacity : U16} {limit : Nat} {s t : State}

theorem RecvKeeps.advances (h : RecvKeeps (min s.hdr.size.toNat limit) s t) : RecvAdvances capacity limit s t :=
  ⟨s.hdr, s.cmdArg, .inl rfl, h⟩

theorem recvAdvances_recvStep1 (hlimit : min 500 s.cmdArg.toNat ≤ limit) :
    AllNext (RecvAdvances capacity limit s) (recvStep1 s) :=
  allNext_recvStep1 (RecvKeeps.refl _ s).advances
    (fun _ _ _ _ _ _ => (RecvKeeps.error _ s (by simp) ..).advances)
    (fun _ _ h _ _ => (recvKeeps_recvStep2 (n := min h.size.toNat limit) _ (by simp; omega)).mono fun _ k =>
      ⟨h, s.cmdArg, .inl rfl, (RecvKeeps.record ..).trans k⟩)

theorem recvAdvances_exec (hlimit : min 500 capacity.toNat ≤ limit) :
    AllNext (RecvAdvances capacity limit s) (exec (.recv capacity) s) :=
  allNext_execRecv (fun _ => (RecvKeeps.record ..).advances) (fun _ _ => (RecvKeeps.record ..).advances)
    fun _ _ => (recvAdvances_recvStep1 (capacity := capacity) hlimit).mono fun _ ⟨h, arg, harg, k⟩ =>
      ⟨h, arg, .inr (by simpa using harg), (RecvKeeps.record ..).trans k⟩

/-- A step that goes on with a RECV. The payload of step 3 has passed its check before, which the step does not see. -/
theorem recvAdvances_resume (hp : s.phase ∈ [.recv1, .recv2, .recv3, .recv4])
    (hlimit : min 500 s.cmdArg.toNat ≤ limit) (checked : s.phase = .recv3 → s.hdr.size.toNat ≤ limit) :
    AllNext (RecvAdvances capacity limit s) (resume s) := by
  simp only [List.mem_cons, List.not_mem_nil, or_false] at hp
  unfold resume
  rcases hp with hp | hp | hp | hp <;> rw [hp]
  · exact recvAdvances_recvStep1 hlimit
  · exact (recvKeeps_recvDrain s).mono fun _ => RecvKeeps.advances
  · exact (recvKeeps_recvStep3 s (le_min le_rfl (checked hp))).mono fun _ => RecvKeeps.advances
  · exact (recvKeeps_recvStep4 s).mono fun _ => RecvKeeps.advances

theorem recvAdvances_step (hp : s.phase ∈ [.recv1, .recv2, .recv3, .recv4])
    (hlimit : min 500 s.cmdArg.toNat ≤ limit) (checked : s.phase = .recv3 → s.hdr.size.toNat ≤ limit) :
    AllNext (RecvAdvances capacity limit s) (step s) :=
  allNext_step (fun _ _ hidle _ => by simp [hidle] at hp) (fun _ _ hdisp _ => by simp [hdisp] at hp)
    fun _ => recvAdvances_resume hp hlimit checked

/-- The header that bounds `CBUF` is the one the RECV ends with. -/
theorem RecvAdvances.cbuf_eq (h : RecvAdvances capacity limit s t) {a : Nat} (ha : min t.hdr.size.toNat limit ≤ a) :
    t.cbuf.read a = s.cbuf.read a := by
  obtain ⟨hdr, arg, -, k⟩ := h
  have e : t.hdr = hdr := by rw [← k.frame]
  exact k.cbuf a (e ▸ ha)

end

/-- Settles O34: the frame and the payload's size bound every step; the limit and the capacity bound `exec`, which makes
the size check, and a step under the size guard, which remembers it. -/
theorem recvFrame : Obligations.RecvFrame := by
  intro s t capacity h
  have whole : RecvAdvances capacity 65535 s t := by
    rcases h with hexec | ⟨hstep, hp, -⟩
    · exact (recvAdvances_exec (by omega)).of_eq hexec
    · exact (recvAdvances_step hp (by omega) (by omega)).of_eq hstep
  have bounded (hb : exec (.recv capacity) s = .next t ∨ s.sizeGuard) :
      RecvAdvances capacity (min 500 capacity.toNat) s t := by
    rcases hb with hexec | hguard
    · exact (recvAdvances_exec le_rfl).of_eq hexec
    · rcases h with hexec | ⟨hstep, hp, harg⟩
      · exact (recvAdvances_exec le_rfl).of_eq hexec
      · refine (recvAdvances_step hp (harg ▸ le_rfl) fun h3 => ?_).of_eq hstep
        obtain ⟨-, -, hrecv⟩ := hguard
        obtain ⟨hmax, hcap⟩ := hrecv (by rw [h3]; rfl)
        exact le_min hmax (harg ▸ hcap)
  have payload {a : Nat} (ha : t.hdr.size.toNat ≤ a) : t.cbuf.read a = s.cbuf.read a := whole.cbuf_eq (by omega)
  obtain ⟨hdr, arg, harg, k⟩ := whole
  refine ⟨?_, ?_, ?_, ?_, ?_, ?_, ?_, ?_, ?_, ?_, ?_, ?_, ?_, ?_, ?operand, k.status, fun _ => payload, ?capacity⟩
  case operand => rw [← k.frame]; exact harg
  case capacity => exact fun hb a ha => (bounded hb).cbuf_eq (by omega)
  all_goals rw [← k.frame]

/-! ## Moves of the other agents -/

theorem handler_environment {m : Move} (hm : m.mayEnd .hHandle = false) (s : State) :
    (s.environment m).handler = s.handler := by
  cases m with
  | handlerMove h => simp [Move.mayEnd] at hm
  | _ => rfl

/-- A wait goes on through every move that is not on its channel: the awaited answer is still missing. -/
theorem waitingOn_environment {s : State} {ch : Channel} {m : Move} (hw : s.waitingOn = some ch)
    (hm : m.mayEnd ch = false) : (s.environment m).waitingOn = some ch := by
  have phase : (s.environment m).phase = s.phase := rfl
  unfold State.waitingOn at hw ⊢
  rw [phase]
  cases hp : s.phase <;> simp only [hp, Option.ite_none_right_eq_some, Option.some.injEq, reduceCtorEq] at hw ⊢
  all_goals obtain ⟨missing, rfl⟩ := hw
  case begin1 => exact ⟨Transport.takeBegin_give missing hm, rfl⟩
  case poll0 => exact ⟨Transport.available_give missing hm, rfl⟩
  case poll1 | recv1 | poll4 | recv3 => exact ⟨Transport.readBytes_give missing hm, rfl⟩
  case poll2 | recv2 => exact ⟨⟨missing.1, Transport.read_give missing.2 hm⟩, rfl⟩
  case poll3 => exact ⟨Allocator.acquire_give missing hm, rfl⟩
  case dispatch => exact ⟨(handler_environment hm s).trans missing, rfl⟩
  case send2 => exact ⟨Transport.takeBeginTransmission_give missing hm, rfl⟩
  case send3 | send4 => exact ⟨Transport.takeWrite_give missing hm, rfl⟩
  case send5 => exact ⟨Transport.takeEndTransmission_give missing hm, rfl⟩

/-- Settles O59: a move writes four fields by definition, and leaves the awaited answer missing unless it is on the
awaited channel. -/
theorem onlyTheCollaboratorEndsAWait : Obligations.OnlyTheCollaboratorEndsAWait :=
  ⟨fun _ _ => rfl, fun _ _ _ => waitingOn_environment⟩

/-! ## Broken assumptions -/

/-- Settles O45: the read unit tests the contract before it goes on, and a SEND past the gate begins with
its payload. -/
theorem brokenAssumptionsAreRefused : Obligations.BrokenAssumptionsAreRefused := by
  refine ⟨fun s n k d t cont hread hbroken => ?contract, fun s c dst size hp hs hsrc => ?source⟩
  case contract =>
    have hno : ¬(k ≤ n ∧ d.length = k.toNat) := by
      rintro ⟨hle, hlen⟩
      exact hbroken.elim (BitVec.not_lt.2 hle) fun hne => hne hlen
    simp only [State.awaitReadBytes, hread, hno, if_false]
  case source =>
    simp only [exec, execSend, State.accept, hp, caller_of_restPhase, State.gate, hs, if_false, sendStep1, hsrc]

end Sys2Proof.Machine

/-! SUPPORT and proofs of the family 30_encoding, the command words. Decoding and encoding are shown once for each form
of operands (none, `arg`, `dst` and `arg`), by the fields of the word. -/

namespace Sys2Proof

/-! ## The word and its fields -/

/-- A word whose `z` is zero is packed from its other fields (30_encoding R77). -/
theorem packWord_fields {w : Word32} (hz : zField w = 0) : packWord (opField w) (dstField w) (argField w) = w := by
  apply BitVec.eq_of_getLsbD_eq
  intro i hi
  rw [packWord_getLsbD]
  split
  · simp [argField, *]
  split
  · simp [dstField, show i - 16 < 8 by omega, show 16 + (i - 16) = i by omega]
  split
  · have hbit := congrArg (·.getLsbD (i - 24)) hz
    simpa [zField, show i - 24 < 4 by omega, show 24 + (i - 24) = i by omega] using hbit.symm
  · simp [opField, show i - 28 < 4 by omega, show 28 + (i - 28) = i by omega]

/-- The bits of a RECVL word below its `op` (30_encoding R78). -/
theorem rest_encode_recvl (rest : BitVec 28) : (encode (.recvl rest)).extractLsb' 0 28 = rest := by
  apply BitVec.eq_of_getLsbD_eq
  intro i hi
  simp [encode_recvl_getLsbD, hi]

/-- A word with `op = 0x7` is the RECVL word of its other bits (30_encoding R78). -/
theorem encode_recvl_rest {w : Word32} (hop : opField w = 7) : encode (.recvl (w.extractLsb' 0 28)) = w := by
  apply BitVec.eq_of_getLsbD_eq
  intro i hi
  rw [encode_recvl_getLsbD]
  split
  · simp [*]
  · rw [show 7#4 = opField w from hop.symm]
    simp [opField, show i - 28 < 4 by omega, show 28 + (i - 28) = i by omega]

/-! ## The forms of operands -/

theorem noOperand_packWord (op : BitVec 4) (i : Instr) : noOperand (packWord op 0#8 0#16) i = .instr i := by
  simp [noOperand, zField_packWord, dstField_packWord, argField_packWord]

theorem argOperand_packWord (op : BitVec 4) (arg : U16) (i : U16 → Instr) :
    argOperand (packWord op 0#8 arg) i = .instr (i arg) := by
  simp [argOperand, zField_packWord, dstField_packWord, argField_packWord]

theorem dstArgOperand_packWord (op : BitVec 4) (dst : Byte) (arg : U16) (i : Byte → U16 → Instr) :
    dstArgOperand (packWord op dst arg) i = .instr (i dst arg) := by
  simp [dstArgOperand, zField_packWord, dstField_packWord, argField_packWord]

/-- An accepted word without operands holds its operation code alone. -/
theorem encode_of_noOperand {w : Word32} {i j : Instr} (hi : encode i = packWord (opField w) 0 0)
    (h : noOperand w i = .instr j) : encode j = w := by
  unfold noOperand at h
  split_ifs at h with hz hdst harg
  rw [not_not] at hz hdst harg
  rw [← Decoded.instr.inj h, hi, ← hdst, ← harg, packWord_fields hz]

/-- An accepted word with the operand `arg` holds its operation code and that operand. -/
theorem encode_of_argOperand {w : Word32} {i : U16 → Instr} {j : Instr}
    (hi : ∀ arg, encode (i arg) = packWord (opField w) 0 arg) (h : argOperand w i = .instr j) : encode j = w := by
  unfold argOperand at h
  split_ifs at h with hz hdst
  rw [not_not] at hz hdst
  rw [← Decoded.instr.inj h, hi, ← hdst, packWord_fields hz]

/-- An accepted word with both operands holds its operation code and those operands. -/
theorem encode_of_dstArgOperand {w : Word32} {i : Byte → U16 → Instr} {j : Instr}
    (hi : ∀ dst arg, encode (i dst arg) = packWord (opField w) dst arg) (h : dstArgOperand w i = .instr j) :
    encode j = w := by
  unfold dstArgOperand at h
  split_ifs at h with hz
  rw [not_not] at hz
  rw [← Decoded.instr.inj h, hi, packWord_fields hz]

theorem noOperand_reserved_iff {w : Word32} {i : Instr} :
    (∃ why, noOperand w i = .reserved why) ↔ zField w ≠ 0 ∨ dstField w ≠ 0 ∨ argField w ≠ 0 := by
  unfold noOperand
  split_ifs <;> simp_all

theorem argOperand_reserved_iff {w : Word32} {i : U16 → Instr} :
    (∃ why, argOperand w i = .reserved why) ↔ zField w ≠ 0 ∨ dstField w ≠ 0 := by
  unfold argOperand
  split_ifs <;> simp_all

theorem dstArgOperand_reserved_iff {w : Word32} {i : Byte → U16 → Instr} :
    (∃ why, dstArgOperand w i = .reserved why) ↔ zField w ≠ 0 := by
  unfold dstArgOperand
  split_ifs <;> simp_all

/-! ## The decoder -/

/-- Settles O1: the word's `op` field selects the form of operands that the encoder packed. -/
theorem decodeOfEncode : Obligations.DecodeOfEncode := by
  intro i
  cases i with
  | begin | haserr | geterr | poll => simp [encode, decode, opField_packWord, noOperand_packWord]
  | seth ref => simp [encode, decode, opField_packWord, argOperand_packWord]
  | recv capacity => simp [encode, decode, opField_packWord, argOperand_packWord]
  | send dst size => simp [encode, decode, opField_packWord, dstArgOperand_packWord]
  | recvl rest => simp [decode, opField_encode_recvl, rest_encode_recvl]

/-- Settles O2: an accepted word is packed from the fields its operation keeps, the others being zero. -/
theorem encodeOfDecode : Obligations.EncodeOfDecode := by
  intro w i h
  unfold decode at h
  split_ifs at h with h0 h1 h2 h3 h4 h5 h6 h7
  · exact encode_of_noOperand (h0 ▸ rfl) h
  · exact encode_of_noOperand (h1 ▸ rfl) h
  · exact encode_of_noOperand (h2 ▸ rfl) h
  · exact encode_of_argOperand (fun _ => h3 ▸ rfl) h
  · exact encode_of_noOperand (h4 ▸ rfl) h
  · exact encode_of_argOperand (fun _ => h5 ▸ rfl) h
  · exact encode_of_dstArgOperand (fun _ _ => h6 ▸ rfl) h
  · exact Decoded.instr.inj h ▸ encode_recvl_rest h7

/-- Settles O3: by the form of operands that each operation code has. -/
theorem decoderRejectsReservedWords : Obligations.DecoderRejectsReservedWords := by
  intro w
  unfold decode
  split_ifs with h0 h1 h2 h3 h4 h5 h6 h7
  · simp [noOperand_reserved_iff, h0]
  · simp [noOperand_reserved_iff, h1]
  · simp [noOperand_reserved_iff, h2]
  · simp [argOperand_reserved_iff, h3]
  · simp [noOperand_reserved_iff, h4]
  · simp [argOperand_reserved_iff, h5]
  · simp [dstArgOperand_reserved_iff, h6]
  · simp [h7]
  · have hop : 8 ≤ (opField w).toNat := by bv_omega
    simp [hop]

/-- Settles O4: the words are literals, and the decoder runs on them. -/
theorem decodesWordsOfTheSpec : Obligations.DecodesWordsOfTheSpec := by
  unfold Obligations.DecodesWordsOfTheSpec
  decide

end Sys2Proof

/-! SUPPORT and proofs of the family 30_encoding, the responses. One relation says what answers a step gives; it is shown
once for each operation, by the cases of `Laws/Operations.lean`. -/

namespace Sys2Proof.Machine

/-! ## The header and the status codes -/

/-- A 16-bit header field, low byte first (92_eei_decisions D6). -/
theorem fieldOfBytes_toNat (lo hi : Byte) : (fieldOfBytes Config.wireOrder lo hi).toNat = lo.toNat + 256 * hi.toNat := by
  rw [show fieldOfBytes Config.wireOrder lo hi = hi ++ lo from rfl, BitVec.toNat_append,
    ← Nat.shiftLeft_add_eq_or_of_lt lo.isLt, Nat.shiftLeft_eq]
  omega

/-- Settles O39: the six bytes are the header's fields in order. -/
theorem parseHeaderFields : Obligations.ParseHeaderFields :=
  ⟨fun _ _ b2 b3 b4 b5 => ⟨_, rfl, rfl, rfl, fieldOfBytes_toNat b2 b3, fieldOfBytes_toNat b4 b5⟩,
    fun _ => parseHeader_none⟩

/-- Settles O14: the values of `Status.code`. -/
theorem statusCodes : Obligations.StatusCodes := ⟨rfl, rfl, rfl, rfl, rfl, rfl, rfl⟩

/-! ## Rejected commands -/

/-- The responses of a kind that a rejected command can end with (30_encoding R80, R82). -/
def ResponseKind.Gives : ResponseKind → Response → Prop
  | .bare, r => r = .done
  | .oneBit, r => ∃ b, r = .hasErr b
  | .statusCode, r => ∃ st : Status, r = .getErr st.code
  | .received, r => ∃ h, r = .recv 0 h

/-- A rejection gives one response of the command's kind and records its name; besides it can only draw a free value. -/
theorem State.reject_eq (s : State) (c : Caller) (why : Rejection) (k : ResponseKind) :
    ∃ r n, k.Gives r ∧
      s.reject c why k =
        { s with responses := s.responses ++ [(c, r)], rejected := s.rejected ++ [why], draws := n } := by
  cases k with
  | bare => exact ⟨_, _, rfl, rfl⟩
  | oneBit | statusCode | received => exact ⟨_, _, ⟨_, rfl⟩, rfl⟩

/-- A caller whose commands are taken now has a command served. -/
theorem State.accept_eq {s : State} {c : Caller} (hp : s.phase = c.restPhase) (k : Caller → Result) :
    s.accept k = k c := by
  rw [State.accept, hp, caller_of_restPhase]

theorem runCommand_reserved {s : State} {c : Command} {who : Caller} {why : Reserved} (hp : s.phase = who.restPhase)
    (hc : decode c.word = .reserved why) :
    runCommand c s = .next (s.reject who (.reservedWord why) (responseKind c.word)) := by
  simp only [runCommand, hc, State.accept_eq hp]

/-- A step at rest takes the host's next command. -/
theorem step_hostCommand {s : State} {c : Command} {rest : List Command} (hp : s.phase = .idle) (hc : s.cmds = c :: rest) :
    step s = runCommand c { s with cmds := rest } := by
  simp [step, nextMove, State.waitingOn, hp, hc]

/-- A step in a dispatch takes the handler's next command. -/
theorem step_handlerCommand {s : State} {c : Command} {rest : List HandlerMove} (hp : s.phase = .dispatch)
    (hc : s.handler = .command c :: rest) : step s = runCommand c { s with handler := rest } := by
  simp [step, nextMove, State.waitingOn, hp, hc]

/-- Settles O6: the step runs the reserved word, and the rejection gives the response of its kind. -/
theorem reservedWordHasNoEffect : Obligations.ReservedWordHasNoEffect := by
  intro s c who s' why htakes hc
  obtain ⟨r, n, hr, hreject⟩ := s'.reject_eq who (.reservedWord why) (responseKind c.word)
  have gives {k : ResponseKind} (hk : responseKind c.word = k) : k.Gives r := hk ▸ hr
  refine ⟨r, n, ?next, ?bit, ?code, ?received, ?bare⟩
  case next =>
    rcases htakes with ⟨rest, rfl, hp, hcmds, rfl⟩ | ⟨rest, rfl, hp, hmoves, rfl⟩
    · rw [step_hostCommand hp hcmds, runCommand_reserved (s := { s with cmds := rest }) (who := .host) hp hc, hreject]
    · rw [step_handlerCommand hp hmoves,
        runCommand_reserved (s := { s with handler := rest }) (who := .handler) hp hc, hreject]
  case bit => exact fun hop => gives (k := .oneBit) (by simp [responseKind, hop])
  case code => exact fun hop => gives (k := .statusCode) (by simp [responseKind, hop])
  case received => exact fun hop => gives (k := .received) (by simp [responseKind, hop])
  case bare =>
    intro hop
    simp only [List.mem_cons, List.not_mem_nil, or_false, not_or] at hop
    obtain ⟨h1, h2, h5⟩ := hop
    exact gives (k := .bare) (by rw [responseKind, if_neg h1, if_neg h2, if_neg h5])

/-- Settles O7: either caller is served, and the bare completion of a rejection draws no free value. -/
theorem recvlHasNoEffect : Obligations.RecvlHasNoEffect := fun _ _ _ hp => State.accept_eq hp _

/-! ## One response an operation -/

/-- Which responses a step from `s` to `t` gives (30_encoding R80; 42_poll R144; 70_reset_and_hazards R261): one to the
host when it ends at rest, one to the handler when it ends in the dispatch it began in, and otherwise none. -/
structure AnswersOnce (s t : State) : Prop where
  rest : t.phase = .idle → ∃ r, t.responses = s.responses ++ [(.host, r)]
  nested : t.phase = .dispatch → s.phase.inDispatch = true → ∃ r, t.responses = s.responses ++ [(.handler, r)]
  reached : t.phase = .dispatch → s.phase.inDispatch = false → t.responses = s.responses
  running : t.phase ≠ .idle → t.phase ≠ .dispatch → t.responses = s.responses

/-- A SEND runs in a dispatch exactly when it ends in one. -/
@[simp] theorem inDispatch_send1 (c : Caller) : (Phase.send1 c).inDispatch = c.restPhase.inDispatch := by
  cases c <;> rfl
@[simp] theorem inDispatch_send2 (c : Caller) : (Phase.send2 c).inDispatch = c.restPhase.inDispatch := by
  cases c <;> rfl
@[simp] theorem inDispatch_send3 (c : Caller) : (Phase.send3 c).inDispatch = c.restPhase.inDispatch := by
  cases c <;> rfl
@[simp] theorem inDispatch_send4 (c : Caller) : (Phase.send4 c).inDispatch = c.restPhase.inDispatch := by
  cases c <;> rfl
@[simp] theorem inDispatch_send5 (c : Caller) : (Phase.send5 c).inDispatch = c.restPhase.inDispatch := by
  cases c <;> rfl

namespace AnswersOnce

variable {s t : State}

/-- In the middle of an operation nobody is answered. -/
theorem silent (hp : t.phase.caller = none) (same : t.responses = s.responses := by rfl) : AnswersOnce s t where
  rest h := by simp [h, Phase.caller] at hp
  nested h := by simp [h, Phase.caller] at hp
  reached _ _ := same
  running _ _ := same

/-- An operation of the host ends at rest. -/
theorem host (hp : t.phase = .idle) (answer : ∃ r, t.responses = s.responses ++ [(.host, r)]) : AnswersOnce s t where
  rest _ := answer
  nested h := by simp [hp] at h
  reached h := by simp [hp] at h
  running h := absurd hp h

/-- A command of the handler ends in the dispatch it began in. -/
theorem handler (hp : t.phase = .dispatch) (hs : s.phase.inDispatch = true)
    (answer : ∃ r, t.responses = s.responses ++ [(.handler, r)]) : AnswersOnce s t where
  rest h := by simp [hp] at h
  nested _ _ := answer
  reached _ h := by simp [hs] at h
  running _ h := absurd hp h

/-- The operation of either caller ends where that caller's operations do. -/
theorem ended {c : Caller} (hp : t.phase = c.restPhase) (hs : s.phase.inDispatch = c.restPhase.inDispatch)
    (answer : ∃ r, t.responses = s.responses ++ [(c, r)]) : AnswersOnce s t := by
  cases c with
  | host => exact host hp answer
  | handler => exact handler hp hs answer

/-- The rest of an operation, after an update that answers nobody and stays on the same side of the dispatch. -/
theorem after {r : Result} (hr : AllNext (AnswersOnce t) r) (side : t.phase.inDispatch = s.phase.inDispatch)
    (same : t.responses = s.responses := by rfl) : AllNext (AnswersOnce s) r :=
  hr.mono fun _ h =>
    { rest := same ▸ h.rest
      nested := same ▸ side ▸ h.nested
      reached := same ▸ side ▸ h.reached
      running := same ▸ h.running }

end AnswersOnce

/-! ### The operations -/

section

variable {s : State}

theorem answers_beginAwait (run : s.phase.caller = none) : AllNext (AnswersOnce s) (beginAwait s) :=
  allNext_beginAwait (.silent run) fun _ _ => .host rfl ⟨_, rfl⟩

theorem answers_pollStep6 : AllNext (AnswersOnce s) (pollStep6 s) :=
  allNext_pollStep6 (.host rfl ⟨.done, by simp⟩)

/-- The call reaches the dispatch from outside it. -/
theorem answers_pollStep5 (out : s.phase.inDispatch = false) : AllNext (AnswersOnce s) (pollStep5 s) :=
  allNext_pollStep5
    (fun _ _ _ _ => allNext_awaitHandler
      { rest := nofun, nested := by simp [out], reached := fun _ _ => rfl, running := by simp }
      fun _ _ => .host rfl ⟨.done, by simp⟩)
    (fun _ => answers_pollStep6)

theorem answers_pollStep4 (run : s.phase.caller = none) (out : s.phase.inDispatch = false) :
    AllNext (AnswersOnce s) (pollStep4 s) :=
  allNext_pollStep4 (.silent run)
    (fun _ _ _ _ _ _ => .host rfl ⟨.done, by simp⟩)
    (fun _ _ _ _ => AnswersOnce.after (answers_pollStep5 out) rfl)

theorem answers_pollStep3 (run : s.phase.caller = none) (out : s.phase.inDispatch = false) :
    AllNext (AnswersOnce s) (pollStep3 s) :=
  allNext_pollStep3 (.silent run)
    (fun _ _ => .host rfl ⟨_, rfl⟩)
    (fun _ _ _ => AnswersOnce.after (answers_pollStep4 rfl rfl) out.symm)

theorem answers_pollDrain (run : s.phase.caller = none) : AllNext (AnswersOnce s) (pollDrain s) :=
  allNext_awaitDrain (fun _ _ _ _ => .silent run) fun _ _ _ _ => .host rfl ⟨_, rfl⟩

theorem answers_pollStep2 (out : s.phase.inDispatch = false) : AllNext (AnswersOnce s) (pollStep2 s) :=
  allNext_pollStep2
    (fun _ => AnswersOnce.after (answers_pollDrain rfl) out.symm)
    (fun _ => AnswersOnce.after (answers_pollStep3 rfl rfl) out.symm)

theorem answers_pollStep1 (run : s.phase.caller = none) (out : s.phase.inDispatch = false) :
    AllNext (AnswersOnce s) (pollStep1 s) :=
  allNext_pollStep1 (.silent run)
    (fun _ _ _ _ _ _ => .host rfl ⟨_, rfl⟩)
    (fun _ _ _ _ _ => AnswersOnce.after (answers_pollStep2 out) rfl)

theorem answers_pollStep0 (run : s.phase.caller = none) (out : s.phase.inDispatch = false) :
    AllNext (AnswersOnce s) (pollStep0 s) :=
  allNext_pollStep0 (.silent run)
    (fun _ _ => .host rfl ⟨_, rfl⟩)
    (fun _ _ => AnswersOnce.after (answers_pollStep1 rfl rfl) out.symm)

theorem answers_recvStep4 : AllNext (AnswersOnce s) (recvStep4 s) :=
  allNext_recvStep4 (fun _ _ _ => .host rfl ⟨_, rfl⟩) (fun _ _ _ => .host rfl ⟨_, rfl⟩)

theorem answers_recvStep3 (run : s.phase.caller = none) : AllNext (AnswersOnce s) (recvStep3 s) :=
  allNext_recvStep3 (.silent run)
    (fun _ _ _ _ _ _ => .host rfl ⟨_, rfl⟩)
    (fun _ _ _ _ => AnswersOnce.after answers_recvStep4 rfl)

theorem answers_recvDrain (run : s.phase.caller = none) : AllNext (AnswersOnce s) (recvDrain s) :=
  allNext_awaitDrain (fun _ _ _ _ => .silent run) fun _ _ _ _ => .host rfl ⟨_, rfl⟩

theorem answers_recvStep2 (out : s.phase.inDispatch = false) : AllNext (AnswersOnce s) (recvStep2 s) :=
  allNext_recvStep2
    (fun _ => AnswersOnce.after (answers_recvDrain rfl) out.symm)
    (fun _ _ => AnswersOnce.after (answers_recvStep3 rfl) out.symm)

theorem answers_recvStep1 (run : s.phase.caller = none) (out : s.phase.inDispatch = false) :
    AllNext (AnswersOnce s) (recvStep1 s) :=
  allNext_recvStep1 (.silent run)
    (fun _ _ _ _ _ _ => .host rfl ⟨_, rfl⟩)
    (fun _ _ _ _ _ => AnswersOnce.after (answers_recvStep2 out) rfl)

variable {c : Caller}

theorem answers_sendStep5 (hp : s.phase = .send5 c) : AllNext (AnswersOnce s) (sendStep5 c s) :=
  allNext_sendStep5 (.silent (by rw [hp]; rfl)) fun _ _ => .ended (c := c) rfl (by simp [hp]) ⟨_, rfl⟩

theorem answers_sendStep4 (hp : s.phase = .send4 c) : AllNext (AnswersOnce s) (sendStep4 c s) :=
  allNext_sendStep4 (.silent (by rw [hp]; rfl)) fun _ _ => AnswersOnce.after (answers_sendStep5 rfl) (by simp [hp])

theorem answers_sendStep3 (hp : s.phase = .send3 c) : AllNext (AnswersOnce s) (sendStep3 c s) :=
  allNext_sendStep3 (.silent (by rw [hp]; rfl)) fun _ _ _ _ => AnswersOnce.after (answers_sendStep4 rfl) (by simp [hp])

theorem answers_sendStep2 (hp : s.phase = .send2 c) : AllNext (AnswersOnce s) (sendStep2 c s) :=
  allNext_sendStep2 (.silent (by rw [hp]; rfl)) fun _ _ => AnswersOnce.after (answers_sendStep3 rfl) (by simp [hp])

theorem answers_sendStep1 (hp : s.phase = .send1 c) : AllNext (AnswersOnce s) (sendStep1 c s) :=
  allNext_sendStep1 fun _ _ => AnswersOnce.after (answers_sendStep2 rfl) (by simp [hp]) (by simp)

/-! ### Commands and steps -/

/-- A command that is answered at once, the engine staying where it was. -/
theorem answers_respond (hp : s.phase = c.restPhase) (t : State) (phase : t.phase = s.phase)
    (answer : ∃ r, t.responses = s.responses ++ [(c, r)]) : AnswersOnce s t :=
  .ended (phase.trans hp) (congrArg Phase.inDispatch hp) answer

/-- A rejected command is answered to its caller, and the engine stays where it was. -/
theorem answers_reject (hp : s.phase = c.restPhase) (why : Rejection) (k : ResponseKind) :
    AnswersOnce s (s.reject c why k) := by
  obtain ⟨r, n, -, hreject⟩ := s.reject_eq c why k
  exact hreject ▸ answers_respond hp _ rfl ⟨r, rfl⟩

theorem answers_exec (i : Instr) (s : State) : AllNext (AnswersOnce s) (exec i s) := by
  cases i with
  | begin =>
    exact allNext_execBegin (fun hp => answers_reject hp ..) fun hp => AnswersOnce.after (answers_beginAwait rfl) (by rw [hp]; rfl)
  | haserr => exact allNext_accept fun _ hp => answers_respond hp _ rfl ⟨_, rfl⟩
  | geterr => exact allNext_accept fun _ hp => answers_respond hp _ rfl ⟨_, rfl⟩
  | seth ref => exact allNext_accept fun _ hp => answers_respond hp _ rfl ⟨_, rfl⟩
  | poll =>
    exact allNext_execPoll (fun hp => answers_reject hp ..) (fun hp _ => answers_reject hp ..)
      fun hp _ => AnswersOnce.after (answers_pollStep0 rfl rfl) (by rw [hp]; rfl)
  | recv n =>
    exact allNext_execRecv (fun hp => answers_reject hp ..) (fun hp _ => answers_reject hp ..)
      fun hp _ => AnswersOnce.after (answers_recvStep1 rfl rfl) (by rw [hp]; rfl)
  | send dst n =>
    exact allNext_execSend (fun _ hp _ => answers_reject hp ..)
      fun c hp _ => AnswersOnce.after (answers_sendStep1 rfl) (by simp [hp])
  | recvl rest => exact allNext_accept fun _ hp => answers_reject hp ..

theorem answers_runCommand (cmd : Command) (s : State) : AllNext (AnswersOnce s) (runCommand cmd s) :=
  allNext_runCommand
    (fun i _ => AnswersOnce.after (answers_exec i _) (by simp) (by simp))
    (fun _ _ _ hp => answers_reject hp ..)

/-- Outside the dispatch a running operation goes on; in it a step takes the handler's next move. -/
theorem answers_resume (idle : s.phase ≠ .idle) (disp : s.phase ≠ .dispatch) : AllNext (AnswersOnce s) (resume s) := by
  unfold resume
  cases hp : s.phase with
  | idle => exact absurd hp idle
  | dispatch => exact absurd hp disp
  | begin1 => exact answers_beginAwait (by rw [hp]; rfl)
  | poll0 => exact answers_pollStep0 (by rw [hp]; rfl) (by rw [hp]; rfl)
  | poll1 => exact answers_pollStep1 (by rw [hp]; rfl) (by rw [hp]; rfl)
  | poll2 => exact answers_pollDrain (by rw [hp]; rfl)
  | poll3 => exact answers_pollStep3 (by rw [hp]; rfl) (by rw [hp]; rfl)
  | poll4 => exact answers_pollStep4 (by rw [hp]; rfl) (by rw [hp]; rfl)
  | poll5 => exact answers_pollStep5 (by rw [hp]; rfl)
  | poll6 => exact answers_pollStep6
  | recv1 => exact answers_recvStep1 (by rw [hp]; rfl) (by rw [hp]; rfl)
  | recv2 => exact answers_recvDrain (by rw [hp]; rfl)
  | recv3 => exact answers_recvStep3 (by rw [hp]; rfl)
  | recv4 => exact answers_recvStep4
  | send1 c => exact answers_sendStep1 hp
  | send2 c => exact answers_sendStep2 hp
  | send3 c => exact answers_sendStep3 hp
  | send4 c => exact answers_sendStep4 hp
  | send5 c => exact answers_sendStep5 hp

/-- In a dispatch with no move of the handler there is no step. -/
theorem answers_step_dispatch (hp : s.phase = .dispatch) : AllNext (AnswersOnce s) (step s) := by
  cases hmoves : s.handler with
  | nil =>
    rw [step_waiting (ch := .hHandle) (by simp [State.waitingOn, hp, hmoves])]
    trivial
  | cons move moves =>
    cases move with
    | ret => rw [step_ret hp hmoves]; exact AnswersOnce.after answers_pollStep6 rfl
    | command c => rw [step_handlerCommand hp hmoves]; exact AnswersOnce.after (answers_runCommand c _) rfl

theorem answers_step (s : State) : AllNext (AnswersOnce s) (step s) := by
  by_cases disp : s.phase = .dispatch
  · exact answers_step_dispatch disp
  · exact allNext_step
      (fun c _ _ _ => AnswersOnce.after (answers_runCommand c _) rfl)
      (fun _ _ hp _ => absurd hp disp)
      (fun idle => answers_resume idle disp)

end

/-- Settles O50: the four cases of what a step answers. -/
theorem oneResponsePerOperation : Obligations.OneResponsePerOperation := fun s _ hstep =>
  have h := (answers_step s).of_eq hstep
  ⟨h.rest, h.nested, h.reached, h.running⟩

end Sys2Proof.Machine

/-! SUPPORT and proofs of the family 40_datapath_units. A drain is followed answer by answer, and RECV is run inside a
part of the state of its own, so that what stands outside that part cannot matter to it. -/

namespace Sys2Proof.Machine

/-! ## The header codec -/

section

variable (w : WireOrder)

theorem lowByte_append (hi lo : Byte) : lowByte (hi ++ lo) = lo := BitVec.extractLsb'_append_eq_right

theorem highByte_append (hi lo : Byte) : highByte (hi ++ lo) = hi := BitVec.extractLsb'_append_eq_left

theorem highByte_append_lowByte (v : U16) : highByte v ++ lowByte v = v := by
  unfold highByte lowByte
  rw [BitVec.extractLsb'_append_extractLsb'_eq_extractLsb' (by rfl)]
  simp

theorem bytesOfField_length (v : U16) : (bytesOfField w v).length = 2 := by cases w <;> rfl

/-- The two bytes of a field, read again as a field (30_encoding R72). -/
theorem bytesOfField_fieldOfBytes (first second : Byte) :
    bytesOfField w (fieldOfBytes w first second) = [first, second] := by
  cases w <;> simp [bytesOfField, fieldOfBytes, lowByte_append, highByte_append]

/-- A field is the field of its two bytes (30_encoding R72). -/
theorem exists_bytesOfField (v : U16) :
    ∃ first second, bytesOfField w v = [first, second] ∧ fieldOfBytes w first second = v := by
  cases w with
  | little => exact ⟨_, _, rfl, highByte_append_lowByte v⟩
  | big => exact ⟨_, _, rfl, highByte_append_lowByte v⟩

end

theorem buildHeader_length (h : Header) : (buildHeader h).length = 6 := by
  simp [buildHeader, bytesOfField_length]

theorem parseHeader_buildHeader (h : Header) : parseHeader (buildHeader h) = some h := by
  obtain ⟨s0, s1, hsize, size_eq⟩ := exists_bytesOfField Config.wireOrder h.size
  obtain ⟨c0, c1, hcrc, crc_eq⟩ := exists_bytesOfField Config.wireOrder h.crc
  simp [buildHeader, hsize, hcrc, parseHeader, size_eq, crc_eq]

theorem buildHeader_of_parseHeader {b : List Byte} {h : Header} (hb : parseHeader b = some h) : buildHeader h = b := by
  unfold parseHeader at hb
  split at hb
  · cases hb
    simp [buildHeader, bytesOfField_fieldOfBytes]
  · cases hb

/-- Settles O40: a header's two 16-bit fields are recovered from their bytes, and the bytes from the fields. -/
theorem headerRoundTrip : Obligations.HeaderRoundTrip := by
  refine ⟨fun h => ⟨buildHeader_length h, parseHeader_buildHeader h⟩, fun b hb => ?parses,
    fun _ _ => buildHeader_of_parseHeader⟩
  case parses =>
    obtain ⟨h, hh⟩ := Option.isSome_iff_exists.1 ((parseHeader_isSome b).trans (decide_eq_true hb))
    exact ⟨h, hh, buildHeader_of_parseHeader hh⟩

/-! ## The comparators -/

/-- Settles O41: an unsigned comparison of words is one of their numbers. -/
theorem overSizeIsStrict : Obligations.OverSizeIsStrict := by
  intro size capacity
  simp [overSizePoll, overSizeRecv, Config.maxPacketSize, BitVec.lt_def]

/-- Settles O42: the comparator decides the equality. -/
theorem crcComparator : Obligations.CrcComparator := fun _ _ _ => ⟨decide_eq_true_iff, rfl⟩

theorem eq_localByte_iff (id : Fin 255) (b : Byte) : b = localByte id ↔ b.toNat = id.val := by
  have hid : id.val % 256 = id.val := Nat.mod_eq_of_lt (by omega)
  rw [← BitVec.toNat_inj, localByte, BitVec.toNat_ofNat, hid]

theorem addrAccept_iff (id : Fin 255) (dst : Byte) :
    addrAccept id dst = true ↔ dst.toNat = id.val ∨ dst.toNat = 255 := by
  rw [addrAccept, Bool.or_eq_true, decide_eq_true_iff, decide_eq_true_iff, eq_localByte_iff, ← BitVec.toNat_inj]
  rfl

/-! ## The gate -/

theorem sameButRecord_reject (s : State) (c : Caller) (why : Rejection) (k : ResponseKind) :
    sameButRecord s (s.reject c why k) := by
  obtain ⟨r, n, -, hreject⟩ := s.reject_eq c why k
  rw [hreject]
  rfl

theorem State.acceptHost_idle {s : State} (hp : s.phase = .idle) (why : Rejection) (kind : ResponseKind) (k : Result) :
    s.acceptHost why kind k = k := by
  simp only [State.acceptHost, hp, Phase.caller]

theorem State.gate_shut {s : State} (hs : s.status = .notInitialized) (c : Caller) (kind : ResponseKind) (k : Result) :
    s.gate c kind k = .next (s.reject c .notInitialized kind) :=
  if_pos hs

/-- Settles O9: the gate stands before each of the three, and a rejection writes the record alone. -/
theorem gateRejectsBeforeBegin : Obligations.GateRejectsBeforeBegin := by
  refine fun s hs => ⟨fun hp => ⟨?poll, fun n => ?recv⟩, fun c dst n hp => ?send⟩
  case poll =>
    exact ⟨_, (State.acceptHost_idle hp ..).trans (State.gate_shut hs ..), sameButRecord_reject .., rfl⟩
  case recv =>
    exact ⟨_, _, (State.acceptHost_idle hp ..).trans (State.gate_shut hs ..), sameButRecord_reject .., rfl⟩
  case send =>
    exact ⟨_, (State.accept_eq hp _).trans (State.gate_shut hs ..), sameButRecord_reject .., rfl⟩

/-! ## The drain -/

theorem readRequests_drainTrace (vs : List (Option Byte)) : readRequests (drainTrace vs) = vs.length := by
  induction vs with
  | nil => rfl
  | cons v vs ih => simpa [readRequests, drainTrace] using ih

section

variable {s : State} {vs : List (Option Byte)} {t : Transport} {fin : State → State}

/-- A drain whose reads are all answered ends. -/
theorem State.awaitDrain_answered (h : drainAnswered s.transport s.drainLeft vs t) :
    s.awaitDrain fin =
      .next (fin { s with drainLeft := 0, transport := t, trace := s.trace ++ drainEvents 0 vs }) := by
  obtain ⟨hd, hlen⟩ := h
  simp only [State.awaitDrain, hd, hlen, Nat.sub_self, if_true]
  rfl

/-- A drain with fewer answers than reads stands at the next one. -/
theorem State.awaitDrain_open (hd : s.transport.drain s.drainLeft.toNat = (vs, t))
    (hlt : vs.length < s.drainLeft.toNat) :
    ∃ left : U16, left.toNat ≠ 0 ∧ left.toNat + vs.length = s.drainLeft.toNat ∧
      s.awaitDrain fin =
        .next { s with drainLeft := left, transport := t, trace := s.trace ++ drainEvents left.toNat vs } := by
  have hleft : s.drainLeft.toNat - vs.length ≠ 0 := by omega
  have htoNat : (BitVec.ofNat 16 (s.drainLeft.toNat - vs.length)).toNat = s.drainLeft.toNat - vs.length :=
    Nat.mod_eq_of_lt (by omega)
  refine ⟨BitVec.ofNat 16 (s.drainLeft.toNat - vs.length), by omega, by omega, ?_⟩
  simp only [State.awaitDrain, hd, hleft, if_false, htoNat]

end

theorem State.beginDrain_pos (s : State) (p : Phase) {n : U16} (hn : n ≠ 0) :
    s.beginDrain p n = { s with phase := p, drainLeft := n, trace := s.trace ++ [.request .tRead] } := by
  rw [State.beginDrain, if_neg hn]

/-- The events of a drain's answers after its first request, of which there is none when nothing is to be read. -/
theorem drainEvents_begun {n : U16} {vs : List (Option Byte)} (hlen : vs.length = n.toNat) :
    (if n = 0 then [] else [.request .tRead]) ++ drainEvents 0 vs = drainTrace vs := by
  cases vs with
  | nil => simp [show n = 0 from BitVec.eq_of_toNat_eq hlen.symm, drainEvents, drainTrace]
  | cons v vs =>
    have hn : n ≠ 0 := by rintro rfl; simp at hlen
    rw [if_neg hn]
    exact drainEvents_done v vs

/-- Settles O44: the first request and the events of the answers are the reads of the drain, one after the other. -/
theorem drainIssuesExactlyN : Obligations.DrainIssuesExactlyN := by
  refine fun s p n fin => ⟨fun vs t h => ⟨?ends, (readRequests_drainTrace vs).trans h.2⟩, fun vs t hd hlt => ?stands,
    fun vs t hne h => ?resumedEnds, fun vs t hd hlt => ?resumedStands⟩
  case ends =>
    rw [State.awaitDrain_answered (s := s.beginDrain p n) h]
    simp only [State.beginDrain, List.append_assoc, drainEvents_begun h.2]
  case stands =>
    obtain ⟨left, hne, hsum, heq⟩ := State.awaitDrain_open (s := s.beginDrain p n) (fin := fin) hd hlt
    have hn : n ≠ 0 := by rintro rfl; simp at hlt
    refine ⟨left, hsum, ?_⟩
    rw [heq, s.beginDrain_pos p hn]
    simp [drainEvents_open _ hne]
  case resumedEnds =>
    have htrace : [.request .tRead] ++ drainEvents 0 vs = drainTrace vs := by
      rw [← drainEvents_begun h.2, if_neg hne]
    refine ⟨drainEvents 0 vs, htrace, ?_, State.awaitDrain_answered h⟩
    rw [← h.2, ← readRequests_drainTrace, ← htrace]
    simp [readRequests]
  case resumedStands =>
    obtain ⟨left, hne, hsum, heq⟩ := State.awaitDrain_open (fin := fin) hd hlt
    exact ⟨_, left, drainEvents_open _ hne vs, hsum, heq⟩

/-! ## RECV and the address filter -/

/-- `s` with all that RECV reads or writes (43_receive R160) taken from `t`. -/
def State.withRecvPart (s t : State) : State :=
  { s with
      status := t.status, hdr := t.hdr, phase := t.phase, cmdArg := t.cmdArg, drainLeft := t.drainLeft, cbuf := t.cbuf
      transport := t.transport, crcUnit := t.crcUnit, trace := t.trace, responses := t.responses
      rejected := t.rejected, draws := t.draws, freeSource := t.freeSource }

@[simp] theorem State.withRecvPart_hdr (s t : State) : (s.withRecvPart t).hdr = t.hdr := rfl
@[simp] theorem State.withRecvPart_phase (s t : State) : (s.withRecvPart t).phase = t.phase := rfl
@[simp] theorem State.withRecvPart_cbuf (s t : State) : (s.withRecvPart t).cbuf = t.cbuf := rfl
@[simp] theorem State.withRecvPart_transport (s t : State) : (s.withRecvPart t).transport = t.transport := rfl

theorem State.withRecvPart_self (s : State) : s.withRecvPart s = s := rfl

theorem mapNext_mapNext (f h : State → State) (r : Result) :
    mapNext f (mapNext h r) = mapNext (fun t => f (h t)) r := by
  cases r <;> rfl

theorem ite_eq_mapNext {f : State → State} {p : Prop} [Decidable p] {yes no yes' no' : Result}
    (hyes : yes' = mapNext f yes) (hno : no' = mapNext f no) :
    (if p then yes' else no') = mapNext f (if p then yes else no) := by
  rw [apply_ite (mapNext f), hyes, hno]

section

variable (g s : State)

theorem awaitReadBytes_withRecvPart (n : U16) {k : U16 → List Byte → State → Result}
    (hk : ∀ got d t, k got d (g.withRecvPart t) = mapNext g.withRecvPart (k got d t)) :
    (g.withRecvPart s).awaitReadBytes n k = mapNext g.withRecvPart (s.awaitReadBytes n k) := by
  rw [State.awaitReadBytes, State.awaitReadBytes, State.withRecvPart_transport]
  split
  · rfl
  · rename_i got d t _
    exact ite_eq_mapNext (hk got d { s with transport := t, trace := s.trace ++ [.answer (.tReadBytes got d)] }) rfl

theorem awaitHeader_withRecvPart {bad : State → State} {k : State → Result}
    (hbad : ∀ t, bad (g.withRecvPart t) = g.withRecvPart (bad t))
    (hk : ∀ t, k (g.withRecvPart t) = mapNext g.withRecvPart (k t)) :
    (g.withRecvPart s).awaitHeader bad k = mapNext g.withRecvPart (s.awaitHeader bad k) := by
  refine awaitReadBytes_withRecvPart g s _ fun _ d t => ?_
  cases parseHeader d with
  | none => exact congrArg Host.Outcome.next (hbad t)
  | some h => exact hk { t with hdr := h }

theorem recvStep4_withRecvPart : recvStep4 (g.withRecvPart s) = mapNext g.withRecvPart (recvStep4 s) := by
  rw [recvStep4, recvStep4, State.withRecvPart_cbuf, State.withRecvPart_hdr]
  split
  · rfl
  · exact ite_eq_mapNext rfl rfl

theorem recvStep3_withRecvPart : recvStep3 (g.withRecvPart s) = mapNext g.withRecvPart (recvStep3 s) :=
  awaitReadBytes_withRecvPart g s _ fun _ d t =>
    ite_eq_mapNext rfl (recvStep4_withRecvPart g { t with cbuf := t.cbuf.writeBytes 0 d })

theorem recvDrain_withRecvPart : recvDrain (g.withRecvPart s) = mapNext g.withRecvPart (recvDrain s) :=
  ite_eq_mapNext rfl rfl

theorem recvStep2_withRecvPart : recvStep2 (g.withRecvPart s) = mapNext g.withRecvPart (recvStep2 s) :=
  ite_eq_mapNext
    (recvDrain_withRecvPart g (State.beginDrain { s with status := .packetOverSize } .recv2 s.hdr.size))
    (recvStep3_withRecvPart g (s.request .recv3 (.tReadBytes s.hdr.size)))

theorem recvStep1_withRecvPart : recvStep1 (g.withRecvPart s) = mapNext g.withRecvPart (recvStep1 s) :=
  awaitHeader_withRecvPart g s (fun _ => rfl) (recvStep2_withRecvPart g)

/-- RECV runs within its part of the state: put into another state, that part has the same outcome there. -/
theorem exec_recv_withRecvPart (capacity : U16) :
    exec (.recv capacity) (g.withRecvPart s) = mapNext g.withRecvPart (exec (.recv capacity) s) := by
  rw [exec, exec, execRecv, execRecv, State.acceptHost, State.acceptHost, State.withRecvPart_phase]
  split
  · rfl
  · rfl
  · exact ite_eq_mapNext rfl
      (recvStep1_withRecvPart g (State.request { s with cmdArg := capacity } .recv1 (.tReadBytes Config.headerSize)))

end

/-- What runs within RECV's part of the state goes the same way under a change `f` of the state outside that part. -/
theorem commutes_of_withRecvPart {run : State → Result} {f : State → State} {s : State}
    (hrun : ∀ g : State, run (g.withRecvPart s) = mapNext g.withRecvPart (run s))
    (hf : ∀ t, f (s.withRecvPart t) = (f s).withRecvPart t) : run (f s) = mapNext f (run s) :=
  calc run (f s)
    _ = run ((f s).withRecvPart s) := by rw [← hf, s.withRecvPart_self]
    _ = mapNext (fun t => f (s.withRecvPart t)) (run s) := by simp only [hrun, hf]
    _ = mapNext f (mapNext s.withRecvPart (run s)) := (mapNext_mapNext ..).symm
    _ = mapNext f (run s) := by rw [← hrun, s.withRecvPart_self]

/-- Settles O43: the filter compares numbers, and the node id stands outside what RECV reads or writes. -/
theorem addressFilter : Obligations.AddressFilter :=
  ⟨addrAccept_iff, fun _ capacity id =>
    commutes_of_withRecvPart (run := exec (.recv capacity)) (f := fun t => { t with localId := id })
      (exec_recv_withRecvPart · _ capacity) fun _ => rfl⟩

end Sys2Proof.Machine

/-! SUPPORT and proofs of the family 41_lifecycle_status: what the lifecycle operations write, BEGIN request by request,
and the words and answers of the accessors. -/

namespace Sys2Proof.Machine

/-! ## BEGIN -/

section

variable {s : State} {t : Transport}

theorem exec_begin (hp : s.phase = .idle) :
    exec .begin s = beginAwait (s.request .begin1 (.tBegin Config.lineRate)) :=
  State.acceptHost_idle hp ..

theorem goesOn_begin1 (hp : s.phase = .begin1) : goesOn s = beginAwait s := by
  rw [goesOn_resume (by simp [hp]) (by simp [hp]), resume, hp]

theorem beginAwait_taken (ht : s.transport.takeBegin = some t) :
    beginAwait s = .next (State.finish { s with transport := t, status := .ready } .host .done) := by
  rw [beginAwait, ht]

theorem step_begin1_taken (hp : s.phase = .begin1) (ht : s.transport.takeBegin = some t) :
    step s = .next (State.finish { s with transport := t, status := .ready } .host .done) := by
  rw [step_eq_goesOn (by simp [State.waitingOn, hp, ht]), goesOn_begin1 hp, beginAwait_taken ht]

end

/-! ## What the lifecycle operations leave alone -/

/-- `t` can follow `s` by the lifecycle operation or RECVL `i` (41_lifecycle_status R120 to R123, 43_receive R170): only
BEGIN writes `STATUS`, `PHASE`, the transport and the trace, only SETH the registration, and of the rest only the records
of responses and rejections change. -/
structure LifecycleKeeps (i : Instr) (s t : State) : Prop where
  rest : { s with
      status := t.status, handlerValid := t.handlerValid, handlerRef := t.handlerRef, phase := t.phase
      transport := t.transport, trace := t.trace, responses := t.responses, rejected := t.rejected } = t := by rfl
  engine : i ≠ .begin → t.status = s.status ∧ t.phase = s.phase ∧ t.transport = s.transport ∧ t.trace = s.trace := by
    simp
  registration : (∀ r, i ≠ .seth r) → t.handlerValid = s.handlerValid ∧ t.handlerRef = s.handlerRef := by simp

theorem lifecycleKeeps_exec {i : Instr} (s : State)
    (hi : i ∈ [.begin, .haserr, .geterr] ∨ (∃ r, i = .seth r) ∨ (∃ b, i = .recvl b)) :
    AllNext (LifecycleKeeps i s) (exec i s) := by
  cases i with
  | begin => exact allNext_execBegin (fun _ => {}) fun _ => allNext_beginAwait {} fun _ _ => {}
  | haserr => exact allNext_accept fun _ _ => {}
  | geterr => exact allNext_accept fun _ _ => {}
  | seth r => exact allNext_accept fun _ _ => { registration := fun other => absurd rfl (other r) }
  | recvl b => exact allNext_accept fun _ _ => {}
  | poll | recv n | send dst n => simp at hi

/-- A step from BEGIN's step 1 is the end of BEGIN: one that awaits `T.begin` has no next state. -/
theorem step_begin1_next {s t : State} (hp : s.phase = .begin1) (hstep : step s = .next t) :
    t = { s with phase := .idle, transport := t.transport, status := .ready,
                 responses := s.responses ++ [(.host, .done)] } := by
  cases ht : s.transport.takeBegin with
  | none =>
    have hwait : s.waitingOn = some .tBegin := by simp [State.waitingOn, hp, ht]
    exact nomatch (step_waiting hwait).symm.trans hstep
  | some u =>
    cases (step_begin1_taken hp ht).symm.trans hstep
    rfl

/-- Settles O60: by what each of the five operations writes, and by the end of BEGIN. -/
theorem lifecycleFrame : Obligations.LifecycleFrame := by
  refine ⟨fun i s t hi hexec => ?_, fun _ _ => step_begin1_next⟩
  obtain ⟨hrest, hengine, hregistration⟩ := (lifecycleKeeps_exec s hi).of_eq hexec
  rw [← hrest]
  exact ⟨rfl, rfl, rfl, rfl, rfl, rfl, rfl, rfl, rfl, rfl, rfl, rfl, rfl, rfl, rfl, rfl, rfl, hengine, hregistration⟩

/-! ## What each operation answers -/

/-- Settles O11: the request is issued, and once it is taken BEGIN ends, from rest in one step or from its step 1. -/
theorem beginStoresReady : Obligations.BeginStoresReady := by
  refine ⟨rfl, fun s t hp ht => ?taken, fun s hp => ?goesOn, fun s t hp ht => step_begin1_taken hp ht⟩
  case taken =>
    rw [exec_begin hp, beginAwait_taken (t := t) (by simpa using ht), State.finish, Caller.restPhase, ← hp]
    rfl
  case goesOn =>
    exact (exec_begin hp).trans (goesOn_begin1 rfl).symm

/-- Settles O12: either caller is served, with the error flag. -/
theorem haserrAnswersNotReady : Obligations.HaserrAnswersNotReady := ⟨rfl, fun _ _ hp => State.accept_eq hp _⟩

/-- The status that a code stands for (92_eei_decisions D5). -/
def Status.ofCode (n : BitVec 3) : Option Status :=
  [.notInitialized, .ready, .allocationFailure, .packetOverSize, .crcError, .badHeader, .badPacket][n.toNat]?

theorem Status.ofCode_code (st : Status) : Status.ofCode st.code = some st := by cases st <;> rfl

theorem Status.code_ne_seven (st : Status) : st.code ≠ 7 := fun h =>
  nomatch (congrArg Status.ofCode h).symm.trans st.ofCode_code

theorem Status.code_injective : Function.Injective Status.code := fun a b h =>
  Option.some.inj (by rw [← a.ofCode_code, h, b.ofCode_code])

/-- Settles O13: either caller is served, and a code determines its status. -/
theorem geterrAnswersTheStatus : Obligations.GeterrAnswersTheStatus :=
  ⟨rfl, fun _ _ hp => State.accept_eq hp _, Status.code_ne_seven, Status.code_injective⟩

/-- The number of a joined word (00_scope R10: every quantity is unsigned). -/
theorem toNat_append_eq_add {m n : Nat} (hi : BitVec m) (lo : BitVec n) :
    (hi ++ lo).toNat = hi.toNat * 2 ^ n + lo.toNat := by
  rw [BitVec.toNat_append, ← Nat.shiftLeft_add_eq_or_of_lt lo.isLt, Nat.shiftLeft_eq]

/-- The number of a packed command word (30_encoding R77). -/
theorem packWord_toNat (op : BitVec 4) (dst : Byte) (arg : U16) :
    (packWord op dst arg).toNat = op.toNat * 2 ^ 28 + dst.toNat * 2 ^ 16 + arg.toNat := by
  simp only [packWord, toNat_append_eq_add]
  bv_omega

/-- Settles O15: the word by its number, and either caller is served. -/
theorem sethRegistersTheHandler : Obligations.SethRegistersTheHandler := by
  refine ⟨fun ref => ?word, fun _ _ _ hp => State.accept_eq hp _⟩
  case word =>
    apply BitVec.eq_of_toNat_eq
    rw [encode, packWord_toNat]
    bv_omega

end Sys2Proof.Machine

/-! SUPPORT and proofs of the family 42_poll: what a running operation does with the dispatch and with the commands that
wait, POLL request by request, and what POLL and SEND leave alone. -/

namespace Sys2Proof.Machine

/-! ## The dispatch -/

/-- Only the call among the requests, and only the return among the answers, moves the discipline. -/
@[simp] theorem handleAfter_request {r : Request} (hr : ∀ ref h p, r ≠ .hHandle ref h p) (b : Option Bool) :
    handleAfter b (.request r) = b := by
  unfold handleAfter
  split <;> simp_all

@[simp] theorem handleAfter_answer {a : Answer} (ha : a ≠ .hReturn) (b : Option Bool) :
    handleAfter b (.answer a) = b := by
  unfold handleAfter
  split <;> simp_all

@[simp] theorem foldl_handleAfter_drainEvents (left : Nat) (vs : List (Option Byte)) (b : Option Bool) :
    (drainEvents left vs).foldl handleAfter b = b :=
  foldl_onlyReads handleAfter b _ (drainEvents_onlyReads left vs) (by simp) (by simp)

@[simp] theorem foldl_handleAfter_firstRead (n : U16) (b : Option Bool) :
    (if n = 0#16 then [] else [Event.request .tRead]).foldl handleAfter b = b := by
  split <;> simp

@[simp] theorem foldl_handleAfter_releaseBuffer (s : State) (b : Option Bool) :
    s.releaseBuffer.trace.foldl handleAfter b = s.trace.foldl handleAfter b := by
  cases hb : s.bufh with
  | none => rw [State.releaseBuffer_none s hb]
  | some h => simp [State.releaseBuffer_held s h hb]

namespace State.dispatchDiscipline

/-- An update that neither calls the handler nor returns from it, and in a dispatch leaves alone what the call rests
on. -/
theorem keep {s t : State} (hs : s.dispatchDiscipline) (side : t.phase.inDispatch = s.phase.inDispatch)
    (trace : t.trace.foldl handleAfter (some false) = s.trace.foldl handleAfter (some false))
    (same : s.phase.inDispatch = true →
      t.localId = s.localId ∧ t.hdr = s.hdr ∧ (s.handlerValid = true → t.handlerValid = true)) :
    t.dispatchDiscipline := by
  obtain ⟨hpaired, hcall⟩ := hs
  refine ⟨by rw [trace, side, hpaired], fun ht => ?_⟩
  have hin : s.phase.inDispatch = true := side.symm.trans ht
  obtain ⟨localId, hdr, valid⟩ := same hin
  obtain ⟨hvalid, haddr⟩ := hcall hin
  exact ⟨valid hvalid, by rw [localId, hdr]; exact haddr⟩

/-- The call of a registered handler with a packet that passes the filter. -/
theorem call {s : State} (hs : s.dispatchDiscipline) (out : s.phase.inDispatch = false)
    (hvalid : s.handlerValid = true) (haddr : addrAccept s.localId s.hdr.dst = true) (p : List Byte) :
    (s.request .dispatch (.hHandle s.handlerRef s.hdr p)).dispatchDiscipline := by
  obtain ⟨hpaired, -⟩ := hs
  exact ⟨by rw [State.request_trace, List.foldl_append, hpaired, out]; rfl, fun _ => ⟨hvalid, haddr⟩⟩

/-- The return, after which no call is outstanding. -/
theorem ret {s : State} (hs : s.dispatchDiscipline) (hp : s.phase = .dispatch) (moves : List HandlerMove) :
    State.dispatchDiscipline
      { s with handler := moves, phase := .idle, trace := s.trace ++ [.answer .hReturn] } := by
  obtain ⟨hpaired, -⟩ := hs
  exact ⟨by rw [List.foldl_append, hpaired, hp]; rfl, nofun⟩

end State.dispatchDiscipline

/-- `t` can follow `s` in the steps of one operation (42_poll R143, R144; 70_reset_and_hazards R253): no command is
taken, of the handler's moves at most the return that ends the dispatch, and the dispatch discipline is kept. -/
structure KeepsDispatch (s t : State) : Prop where
  cmds : t.cmds = s.cmds
  moves : t.handler = s.handler ∨ s.handler = .ret :: t.handler
  discipline : s.dispatchDiscipline → t.dispatchDiscipline

namespace KeepsDispatch

theorem refl (s : State) : KeepsDispatch s s := ⟨rfl, .inl rfl, id⟩

/-- The rest of an operation, after an update that takes no move. -/
theorem after {s t : State} {r : Result} (hr : AllNext (KeepsDispatch t) r) (h : KeepsDispatch s t)
    (handler : t.handler = s.handler := by simp) : AllNext (KeepsDispatch s) r :=
  hr.mono fun _ k => ⟨k.cmds.trans h.cmds, handler ▸ k.moves, k.discipline ∘ h.discipline⟩

/-- An update that neither enters nor leaves the dispatch. -/
theorem within {s t : State} (side : t.phase.inDispatch = s.phase.inDispatch)
    (same : s.phase.inDispatch = true →
      t.localId = s.localId ∧ t.hdr = s.hdr ∧ (s.handlerValid = true → t.handlerValid = true) := by simp)
    (trace : t.trace.foldl handleAfter (some false) = s.trace.foldl handleAfter (some false) := by simp)
    (queues : t.cmds = s.cmds ∧ t.handler = s.handler := by simp) : KeepsDispatch s t :=
  ⟨queues.1, .inl queues.2, fun hs => hs.keep side trace same⟩

/-- An update outside the dispatch, where the discipline says nothing of the header and the registration. -/
theorem outside {s t : State} (hs : s.phase.inDispatch = false) (ht : t.phase.inDispatch = false := by rfl)
    (trace : t.trace.foldl handleAfter (some false) = s.trace.foldl handleAfter (some false) := by simp)
    (queues : t.cmds = s.cmds ∧ t.handler = s.handler := by simp) : KeepsDispatch s t :=
  within (ht.trans hs.symm) (by simp [hs]) trace queues

end KeepsDispatch

/-! ### The operations -/

section

variable {s : State}

theorem keepsDispatch_beginAwait (out : s.phase.inDispatch = false) : AllNext (KeepsDispatch s) (beginAwait s) :=
  allNext_beginAwait (.refl s) fun _ _ => .outside out

theorem keepsDispatch_pollStep6 (out : s.phase.inDispatch = false) : AllNext (KeepsDispatch s) (pollStep6 s) :=
  .outside out

/-- The return is the one move taken. -/
theorem keepsDispatch_awaitHandler (hp : s.phase = .dispatch) : AllNext (KeepsDispatch s) (awaitHandler s) :=
  allNext_awaitHandler (.refl s) fun rest hret => allNext_pollStep6
    { cmds := by simp
      moves := .inr (by simpa using hret)
      discipline := fun hs => (hs.ret hp rest).keep rfl (by simp) nofun }

theorem keepsDispatch_pollStep5 (out : s.phase.inDispatch = false) : AllNext (KeepsDispatch s) (pollStep5 s) :=
  allNext_pollStep5
    (fun p haddr hvalid _ => KeepsDispatch.after (keepsDispatch_awaitHandler rfl)
      ⟨rfl, .inl rfl, fun hs => hs.call out hvalid haddr p⟩)
    (fun _ => keepsDispatch_pollStep6 out)

theorem keepsDispatch_pollStep4 (out : s.phase.inDispatch = false) : AllNext (KeepsDispatch s) (pollStep4 s) :=
  allNext_pollStep4 (.refl s)
    (fun _ _ _ _ _ _ => .outside out)
    (fun _ _ _ _ => KeepsDispatch.after (keepsDispatch_pollStep5 out) (.outside out out))

theorem keepsDispatch_pollStep3 (out : s.phase.inDispatch = false) : AllNext (KeepsDispatch s) (pollStep3 s) :=
  allNext_pollStep3 (.refl s)
    (fun _ _ => .outside out)
    (fun _ _ _ => KeepsDispatch.after (keepsDispatch_pollStep4 rfl) (.outside out))

/-- A drain stays in its step, or ends the operation. -/
theorem keepsDispatch_drain {fin : State → State} (out : s.phase.inDispatch = false)
    (hfin : ∀ t : State, t.phase.inDispatch = false → KeepsDispatch t (fin t)) :
    AllNext (KeepsDispatch s) (s.awaitDrain fin) :=
  allNext_awaitDrain (fun _ _ _ _ => .outside out out) fun _ _ _ _ =>
    KeepsDispatch.after (r := .next _) (hfin _ out) (.outside out out)

theorem keepsDispatch_pollDrain (out : s.phase.inDispatch = false) : AllNext (KeepsDispatch s) (pollDrain s) :=
  keepsDispatch_drain out fun _ ht => .outside ht

theorem keepsDispatch_pollStep2 (out : s.phase.inDispatch = false) : AllNext (KeepsDispatch s) (pollStep2 s) :=
  allNext_pollStep2
    (fun _ => KeepsDispatch.after (keepsDispatch_pollDrain rfl) (.outside out))
    (fun _ => KeepsDispatch.after (keepsDispatch_pollStep3 rfl) (.outside out))

theorem keepsDispatch_pollStep1 (out : s.phase.inDispatch = false) : AllNext (KeepsDispatch s) (pollStep1 s) :=
  allNext_pollStep1 (.refl s)
    (fun _ _ _ _ _ _ => .outside out)
    (fun _ _ _ _ _ => KeepsDispatch.after (keepsDispatch_pollStep2 out) (.outside out out))

theorem keepsDispatch_pollStep0 (out : s.phase.inDispatch = false) : AllNext (KeepsDispatch s) (pollStep0 s) :=
  allNext_pollStep0 (.refl s)
    (fun _ _ => .outside out)
    (fun _ _ => KeepsDispatch.after (keepsDispatch_pollStep1 rfl) (.outside out))

theorem keepsDispatch_recvStep4 (out : s.phase.inDispatch = false) : AllNext (KeepsDispatch s) (recvStep4 s) :=
  allNext_recvStep4 (fun _ _ _ => .outside out) (fun _ _ _ => .outside out)

theorem keepsDispatch_recvStep3 (out : s.phase.inDispatch = false) : AllNext (KeepsDispatch s) (recvStep3 s) :=
  allNext_recvStep3 (.refl s)
    (fun _ _ _ _ _ _ => .outside out)
    (fun _ _ _ _ => KeepsDispatch.after (keepsDispatch_recvStep4 out) (.outside out out))

theorem keepsDispatch_recvDrain (out : s.phase.inDispatch = false) : AllNext (KeepsDispatch s) (recvDrain s) :=
  keepsDispatch_drain out fun _ ht => .outside ht

theorem keepsDispatch_recvStep2 (out : s.phase.inDispatch = false) : AllNext (KeepsDispatch s) (recvStep2 s) :=
  allNext_recvStep2
    (fun _ => KeepsDispatch.after (keepsDispatch_recvDrain rfl) (.outside out))
    (fun _ _ => KeepsDispatch.after (keepsDispatch_recvStep3 rfl) (.outside out))

theorem keepsDispatch_recvStep1 (out : s.phase.inDispatch = false) : AllNext (KeepsDispatch s) (recvStep1 s) :=
  allNext_recvStep1 (.refl s)
    (fun _ _ _ _ _ _ => .outside out)
    (fun _ _ _ _ _ => KeepsDispatch.after (keepsDispatch_recvStep2 out) (.outside out out))

variable {c : Caller}

theorem keepsDispatch_sendStep5 (hp : s.phase = .send5 c) : AllNext (KeepsDispatch s) (sendStep5 c s) :=
  allNext_sendStep5 (.refl s) fun _ _ => .within (by simp [hp])

theorem keepsDispatch_sendStep4 (hp : s.phase = .send4 c) : AllNext (KeepsDispatch s) (sendStep4 c s) :=
  allNext_sendStep4 (.refl s) fun _ _ => KeepsDispatch.after (keepsDispatch_sendStep5 rfl) (.within (by simp [hp]))

theorem keepsDispatch_sendStep3 (hp : s.phase = .send3 c) : AllNext (KeepsDispatch s) (sendStep3 c s) :=
  allNext_sendStep3 (.refl s) fun _ _ _ _ =>
    KeepsDispatch.after (keepsDispatch_sendStep4 rfl) (.within (by simp [hp]))

theorem keepsDispatch_sendStep2 (hp : s.phase = .send2 c) : AllNext (KeepsDispatch s) (sendStep2 c s) :=
  allNext_sendStep2 (.refl s) fun _ _ => KeepsDispatch.after (keepsDispatch_sendStep3 rfl) (.within (by simp [hp]))

/-- A nested SEND has a header of its own, so the packet's stays in the dispatch. -/
theorem keepsDispatch_sendStep1 (hp : s.phase = .send1 c) : AllNext (KeepsDispatch s) (sendStep1 c s) :=
  allNext_sendStep1 fun _ _ =>
    KeepsDispatch.after (keepsDispatch_sendStep2 rfl)
      (.within (by simp [hp]) (by cases c <;> simp [hp, Phase.inDispatch]))

/-! ### Commands and steps -/

theorem keepsDispatch_exec (i : Instr) (s : State) : AllNext (KeepsDispatch s) (exec i s) := by
  have rejected (c : Caller) (why : Rejection) (k : ResponseKind) : KeepsDispatch s (s.reject c why k) :=
    .within (by simp)
  have rest (hp : s.phase = .idle) : s.phase.inDispatch = false := by rw [hp]; rfl
  cases i with
  | begin =>
    exact allNext_execBegin (fun _ => rejected ..)
      fun hp => KeepsDispatch.after (keepsDispatch_beginAwait rfl) (.outside (rest hp))
  | haserr => exact allNext_accept fun _ _ => .within rfl
  | geterr => exact allNext_accept fun _ _ => .within rfl
  | seth ref => exact allNext_accept fun _ _ => .within rfl
  | poll =>
    exact allNext_execPoll (fun _ => rejected ..) (fun _ _ => rejected ..)
      fun hp _ => KeepsDispatch.after (keepsDispatch_pollStep0 rfl) (.outside (rest hp))
  | recv n =>
    exact allNext_execRecv (fun _ => rejected ..) (fun _ _ => rejected ..)
      fun hp _ => KeepsDispatch.after (keepsDispatch_recvStep1 rfl) (.outside (rest hp))
  | send dst n =>
    exact allNext_execSend (fun _ _ _ => rejected ..)
      fun _ hp _ => KeepsDispatch.after (keepsDispatch_sendStep1 rfl) (.within (by simp [hp]))
  | recvl bits => exact allNext_accept fun _ _ => rejected ..

theorem keepsDispatch_runCommand (c : Command) (s : State) : AllNext (KeepsDispatch s) (runCommand c s) :=
  allNext_runCommand
    (fun i _ => KeepsDispatch.after (keepsDispatch_exec i _) (.within (by simp)))
    (fun _ _ _ _ => .within (by simp))

theorem keepsDispatch_resume (s : State) : AllNext (KeepsDispatch s) (resume s) := by
  unfold resume
  cases hp : s.phase with
  | idle => trivial
  | begin1 => exact keepsDispatch_beginAwait (by rw [hp]; rfl)
  | poll0 => exact keepsDispatch_pollStep0 (by rw [hp]; rfl)
  | poll1 => exact keepsDispatch_pollStep1 (by rw [hp]; rfl)
  | poll2 => exact keepsDispatch_pollDrain (by rw [hp]; rfl)
  | poll3 => exact keepsDispatch_pollStep3 (by rw [hp]; rfl)
  | poll4 => exact keepsDispatch_pollStep4 (by rw [hp]; rfl)
  | poll5 => exact keepsDispatch_pollStep5 (by rw [hp]; rfl)
  | dispatch => exact keepsDispatch_awaitHandler hp
  | poll6 => exact keepsDispatch_pollStep6 (by rw [hp]; rfl)
  | recv1 => exact keepsDispatch_recvStep1 (by rw [hp]; rfl)
  | recv2 => exact keepsDispatch_recvDrain (by rw [hp]; rfl)
  | recv3 => exact keepsDispatch_recvStep3 (by rw [hp]; rfl)
  | recv4 => exact keepsDispatch_recvStep4 (by rw [hp]; rfl)
  | send1 c => exact keepsDispatch_sendStep1 hp
  | send2 c => exact keepsDispatch_sendStep2 hp
  | send3 c => exact keepsDispatch_sendStep3 hp
  | send4 c => exact keepsDispatch_sendStep4 hp
  | send5 c => exact keepsDispatch_sendStep5 hp

end

/-- Settles O54: taking a command off its list does not touch the dispatch, and every operation keeps its discipline. -/
theorem stepKeepsDispatchDiscipline : Obligations.StepKeepsDispatchDiscipline := fun s _ hs hstep =>
  (allNext_step
    (fun c rest _ _ => (keepsDispatch_runCommand c { s with cmds := rest }).mono fun _ h => h.discipline hs)
    (fun c rest _ _ => (keepsDispatch_runCommand c { s with handler := rest }).mono fun _ h => h.discipline hs)
    (fun _ => (keepsDispatch_resume s).mono fun _ h => h.discipline hs)).of_eq hstep

/-- In the middle of an operation nobody's command is taken. -/
theorem exec_busy (i : Instr) {s : State} (h : s.phase.caller = none) : exec i s = .refused .commandWhileBusy := by
  have accept (k : Caller → Result) : s.accept k = .refused .commandWhileBusy := by rw [State.accept, h]
  have acceptHost (why : Rejection) (kind : ResponseKind) (k : Result) :
      s.acceptHost why kind k = .refused .commandWhileBusy := by rw [State.acceptHost, h]
  cases i with
  | begin | poll | recv n => exact acceptHost ..
  | haserr | geterr | seth ref | send dst n | recvl bits => exact accept _

theorem caller_eq_none {p : Phase} (idle : p ≠ .idle) (disp : p ≠ .dispatch) : p.caller = none := by
  cases p with
  | idle => exact absurd rfl idle
  | dispatch => exact absurd rfl disp
  | _ => rfl

/-- Settles O8: no caller is there to be served, and the running operation goes on without taking a command. -/
theorem busyEngineServesNoCommand : Obligations.BusyEngineServesNoCommand := by
  refine ⟨fun i _ idle disp => exec_busy i (caller_eq_none idle disp), fun s t idle disp hstep => ?_⟩
  have h : KeepsDispatch s t :=
    (allNext_step (fun _ _ hp _ => absurd hp idle) (fun _ _ hp _ => absurd hp disp)
      fun _ => keepsDispatch_resume s).of_eq hstep
  exact ⟨h.cmds, h.moves⟩

/-! ## POLL, request by request -/

section

variable {s : State}

theorem goesOn_poll0 (hp : s.phase = .poll0) : goesOn s = pollStep0 s := by
  rw [goesOn_resume (by simp [hp]) (by simp [hp]), resume, hp]

theorem goesOn_poll1 (hp : s.phase = .poll1) : goesOn s = pollStep1 s := by
  rw [goesOn_resume (by simp [hp]) (by simp [hp]), resume, hp]

theorem goesOn_poll2 (hp : s.phase = .poll2) : goesOn s = pollDrain s := by
  rw [goesOn_resume (by simp [hp]) (by simp [hp]), resume, hp]

theorem goesOn_poll3 (hp : s.phase = .poll3) : goesOn s = pollStep3 s := by
  rw [goesOn_resume (by simp [hp]) (by simp [hp]), resume, hp]

theorem goesOn_poll4 (hp : s.phase = .poll4) : goesOn s = pollStep4 s := by
  rw [goesOn_resume (by simp [hp]) (by simp [hp]), resume, hp]

/-! ### A step whose answer is there -/

theorem step_poll0 {x : Bool × Transport} (hp : s.phase = .poll0) (h : s.transport.available = some x) :
    step s = pollStep0 s := by
  rw [step_eq_goesOn (by simp [State.waitingOn, hp, h]), goesOn_poll0 hp]

theorem step_poll1 {x : U16 × List Byte × Transport} (hp : s.phase = .poll1)
    (h : s.transport.readBytes Config.headerSize = some x) : step s = pollStep1 s := by
  rw [step_eq_goesOn (by simp [State.waitingOn, hp, h]), goesOn_poll1 hp]

theorem step_poll2 {x : Option Byte × Transport} (hp : s.phase = .poll2) (h : s.transport.read = some x) :
    step s = pollDrain s := by
  rw [step_eq_goesOn (by simp [State.waitingOn, hp, h]), goesOn_poll2 hp]

theorem step_poll3 {x : AllocAnswer × Allocator} (hp : s.phase = .poll3) (h : s.allocator.acquire = some x) :
    step s = pollStep3 s := by
  rw [step_eq_goesOn (by simp [State.waitingOn, hp, h]), goesOn_poll3 hp]

theorem step_poll4 {x : U16 × List Byte × Transport} (hp : s.phase = .poll4)
    (h : s.transport.readBytes s.hdr.size = some x) : step s = pollStep4 s := by
  rw [step_eq_goesOn (by simp [State.waitingOn, hp, h]), goesOn_poll4 hp]

/-! ### The steps, answer by answer

A `by exact` within a rewrite has the state of a lemma found in the goal before its hypothesis is looked at. -/

/-- A POLL past the gate stands at, or goes on from, its first question. -/
theorem exec_poll (hp : s.phase = .idle) (hs : s.status ≠ .notInitialized) :
    exec .poll s = goesOn { s with phase := .poll0, trace := s.trace ++ [.request .tAvailable] } := by
  rw [goesOn_poll0 rfl]
  exact (State.acceptHost_idle hp ..).trans (if_neg hs)

theorem pollStep0_idle {t : Transport} (ht : s.transport.available = some (false, t)) :
    pollStep0 s =
      .next { s with transport := t, phase := .idle, trace := s.trace ++ [.answer (.tAvailable false)],
                     responses := s.responses ++ [(.host, .done)] } := by
  simp only [pollStep0, ht]
  rfl

theorem pollStep0_bytes {t : Transport} (ht : s.transport.available = some (true, t)) :
    pollStep0 s =
      goesOn { s with transport := t, phase := .poll1,
                      trace := s.trace ++ [.answer (.tAvailable true), .request (.tReadBytes 6)] } := by
  rw [goesOn_poll1 rfl]
  simp [pollStep0, ht, State.request, Config.headerSize]

theorem pollStep1_short {t : Transport} {k : U16} {d : List Byte} (hr : shortRead s.transport 6 k d t) :
    pollStep1 s =
      .next { s with transport := t, status := .badHeader, phase := .idle,
                     trace := s.trace ++ [.answer (.tReadBytes k d)],
                     responses := s.responses ++ [(.host, .done)] } :=
  State.awaitHeader_short hr

theorem ne_zero_of_large {n : U16} (hlt : 500 < n.toNat) : n ≠ 0 := fun h => by
  simp [h] at hlt

theorem overSizePoll_iff (size : U16) : overSizePoll size = true ↔ 500 < size.toNat :=
  (overSizeIsStrict size 0).1

/-- A header within the limit: a buffer is asked for. -/
theorem pollStep1_fits {t : Transport} {d : List Byte} {h : Header} (hh : headerArrives s.transport d h t)
    (hle : h.size.toNat ≤ 500) :
    pollStep1 s =
      goesOn { s with transport := t, phase := .poll3, hdr := h,
                      trace := s.trace ++ [.answer (.tReadBytes 6 d), .request (.aAcquire h.size)] } := by
  have fits : ¬overSizePoll h.size = true := by rw [overSizePoll_iff]; omega
  rw [goesOn_poll3 rfl, pollStep1, State.awaitHeader_arrives hh]
  simp [pollStep2, fits, State.request]

/-- An oversize header: the drain begins. -/
theorem pollStep1_large {t : Transport} {d : List Byte} {h : Header} (hh : headerArrives s.transport d h t)
    (hlt : 500 < h.size.toNat) :
    pollStep1 s =
      goesOn { s with transport := t, phase := .poll2, status := .packetOverSize, hdr := h, drainLeft := h.size,
                      trace := s.trace ++ [.answer (.tReadBytes 6 d), .request .tRead] } := by
  rw [goesOn_poll2 rfl, pollStep1, State.awaitHeader_arrives hh]
  simp only [pollStep2, overSizePoll_iff, hlt, if_true, State.beginDrain_pos _ _ (ne_zero_of_large hlt),
    List.append_assoc]
  rfl

theorem pollStep3_granted {a : Allocator} {g : Handle} (ha : s.allocator.acquire = some (.ok g, a)) :
    pollStep3 s =
      goesOn { s with allocator := a, phase := .poll4, bufh := some g, pbuf := [],
                      trace := s.trace ++ [.answer (.aAcquire (.ok g)), .request (.tReadBytes s.hdr.size)] } := by
  rw [goesOn_poll4 rfl]
  simp [pollStep3, ha, State.request]

theorem pollStep6_held {g : Handle} (hb : s.bufh = some g) :
    pollStep6 s =
      .next { s with phase := .idle, bufh := none, pbuf := [], trace := s.trace ++ [.request (.aRelease g)],
                     responses := s.responses ++ [(.host, .done)] } := by
  rw [pollStep6, State.releaseBuffer_held s g hb]
  rfl

theorem pollStep4_short {t : Transport} {k : U16} {p : List Byte} {g : Handle} (hb : s.bufh = some g)
    (hr : shortRead s.transport s.hdr.size k p t) :
    pollStep4 s =
      .next { s with transport := t, status := .badPacket, phase := .idle, bufh := none, pbuf := [],
                     trace := s.trace ++ [.answer (.tReadBytes k p), .request (.aRelease g)],
                     responses := s.responses ++ [(.host, .done)] } := by
  obtain ⟨hread, hlt, hlen⟩ := hr
  rw [pollStep4, State.awaitReadBytes_answered hread (BitVec.le_of_lt hlt) hlen]
  simp [hlt, State.releaseBuffer, hb, State.fail]

theorem pollStep4_arrives {t : Transport} {p : List Byte} (hr : payloadArrives s.transport s.hdr.size p t) :
    pollStep4 s =
      pollStep5 { s with transport := t, pbuf := s.pbuf.writeBytes 0 p,
                         trace := s.trace ++ [.answer (.tReadBytes s.hdr.size p)] } := by
  obtain ⟨hread, hlen⟩ := hr
  rw [pollStep4, State.awaitReadBytes_answered hread (BitVec.le_refl _) hlen]
  simp

/-- The payload in `PBUF` is the one that arrived. -/
theorem readBytes_of_payloadArrives {t t' : Transport} {n : U16} {p : List Byte} (hr : payloadArrives t n p t')
    (m : Memory) : (m.writeBytes 0 p).readBytes 0 n.toNat = some p :=
  hr.2 ▸ Memory.readBytes_writeBytes p m 0

/-- A payload that is accepted, with a handler there, is handed over. -/
theorem pollStep4_call {t : Transport} {p : List Byte} (hr : payloadArrives s.transport s.hdr.size p t)
    (haddr : addrAccept s.localId s.hdr.dst = true) (hvalid : s.handlerValid = true) :
    pollStep4 s =
      awaitHandler { s with transport := t, phase := .dispatch, pbuf := s.pbuf.writeBytes 0 p,
                            trace := s.trace ++ [.answer (.tReadBytes s.hdr.size p),
                              .request (.hHandle s.handlerRef s.hdr p)] } := by
  rw [pollStep4_arrives hr]
  simp [pollStep5, haddr, hvalid, readBytes_of_payloadArrives hr, State.request]

/-- Any other payload is dropped with its buffer. -/
theorem pollStep4_drop {t : Transport} {p : List Byte} {g : Handle} (hb : s.bufh = some g)
    (hr : payloadArrives s.transport s.hdr.size p t)
    (hno : ¬(addrAccept s.localId s.hdr.dst = true ∧ s.handlerValid = true)) :
    pollStep4 s =
      .next { s with transport := t, phase := .idle, bufh := none, pbuf := [],
                     trace := s.trace ++ [.answer (.tReadBytes s.hdr.size p), .request (.aRelease g)],
                     responses := s.responses ++ [(.host, .done)] } := by
  rw [pollStep4_arrives hr, pollStep5, if_neg hno, pollStep6_held (g := g) (by exact hb)]
  simp

theorem awaitHandler_waits (h : ∀ moves, s.handler ≠ .ret :: moves) : awaitHandler s = .next s := by
  unfold awaitHandler
  split
  · exact absurd ‹_› (h _)
  · rfl
  · rfl

theorem awaitHandler_returned {moves : List HandlerMove} {g : Handle} (hb : s.bufh = some g)
    (hm : s.handler = .ret :: moves) :
    awaitHandler s =
      .next { s with handler := moves, phase := .idle, bufh := none, pbuf := [],
                     trace := s.trace ++ [.answer .hReturn, .request (.aRelease g)],
                     responses := s.responses ++ [(.host, .done)] } := by
  simp only [awaitHandler, hm]
  rw [pollStep6_held (g := g) (by exact hb)]
  simp

/-! ### From rest -/

theorem exec_poll_bytes {t : Transport} (hp : s.phase = .idle) (hs : s.status ≠ .notInitialized)
    (ht : s.transport.available = some (true, t)) :
    exec .poll s =
      goesOn { s with transport := t, phase := .poll1,
                      trace := s.trace ++ availableEvents true ++ [.request (.tReadBytes 6)] } := by
  rw [exec_poll hp hs, goesOn_poll0 rfl, pollStep0_bytes (by exact ht)]
  simp [availableEvents]

/-- With bytes there, a header within the limit and a buffer granted, a POLL goes on from its payload read. -/
theorem exec_poll_granted {t1 t2 : Transport} {d : List Byte} {h : Header} {a : Allocator} {g : Handle}
    (hp : s.phase = .idle) (hs : s.status ≠ .notInitialized) (ht : s.transport.available = some (true, t1))
    (hh : headerArrives t1 d h t2) (hle : h.size.toNat ≤ 500) (ha : s.allocator.acquire = some (.ok g, a)) :
    exec .poll s =
      pollStep4 { s with transport := t2, phase := .poll4, hdr := h, allocator := a, bufh := some g, pbuf := [],
                         trace := s.trace ++ availableEvents true ++ readEvents 6 6 d ++
                           acquireEvents h.size (.ok g) ++ [.request (.tReadBytes h.size)] } := by
  rw [exec_poll_bytes hp hs ht, goesOn_poll1 rfl, pollStep1_fits hh hle, goesOn_poll3 rfl,
    pollStep3_granted (by exact ha), goesOn_poll4 rfl]
  simp [readEvents, acquireEvents]

end

/-- Settles O16: the answer is awaited at step 0, and no bytes end the POLL. -/
theorem pollIdle : Obligations.PollIdle := by
  refine ⟨fun s t hp hs ht => ?whole, fun s hp hs => exec_poll hp hs, fun s t hp ht => ?step0⟩
  case whole =>
    rw [exec_poll hp hs, goesOn_poll0 rfl, pollStep0_idle (by exact ht)]
    simp [availableEvents, hp]
  case step0 => rw [step_poll0 hp ht, pollStep0_idle ht]

/-- Settles O17: the header is asked for once there are bytes, and a short one takes the error exit. -/
theorem pollShortHeader : Obligations.PollShortHeader := by
  refine ⟨fun s t1 t2 k d hp hs ht hr => ?whole, fun s t hp ht => ?step0, fun s t k d hp hr => ?step1⟩
  case whole =>
    rw [exec_poll_bytes hp hs ht, goesOn_poll1 rfl, pollStep1_short hr]
    simp [readEvents, hp]
  case step0 => rw [step_poll0 hp ht, pollStep0_bytes ht]
  case step1 => rw [step_poll1 hp hr.1, pollStep1_short hr]

/-- Settles O18: the drain begins with its first read, and each answer leads to the next read or to the end. -/
theorem pollOversizeDrains : Obligations.PollOversizeDrains := by
  refine ⟨fun s t1 t2 t3 d h vs hp hs ht hh hlt hvs => ?whole, fun s t d h hp hh hlt => ?step1,
    fun s t v hp hv => ⟨fun hleft => ?more, fun hleft => ?last⟩⟩
  case whole =>
    have hreads : [.request .tRead] ++ drainEvents 0 vs = drainTrace vs := by
      rw [← drainEvents_begun hvs.2, if_neg (ne_zero_of_large hlt)]
    rw [exec_poll_bytes hp hs ht, goesOn_poll1 rfl, pollStep1_large hh hlt, goesOn_poll2 rfl, pollDrain,
      State.awaitDrain_answered hvs]
    simp [State.finish, readEvents, hp, ← hreads]
  case step1 => rw [step_poll1 hp hh.1, pollStep1_large hh hlt]
  case more => rw [step_poll2 hp hv, pollDrain, awaitDrain_more hleft hv, goesOn_poll2 (by exact hp), pollDrain]
  case last =>
    rw [step_poll2 hp hv, pollDrain, awaitDrain_last hleft hv]
    rfl

/-- Settles O20: the buffer is asked for, then the payload, and a short one takes the error exit behind the release. -/
theorem pollShortPayload : Obligations.PollShortPayload := by
  refine ⟨fun s t1 t2 t3 d p h a g k hp hs ht hh hle ha hr => ?whole, fun s t d h hp hh hle => ?step1,
    fun s a g hp ha => ?step3, fun s t k p g hp hb hr => ?step4⟩
  case whole =>
    rw [exec_poll_granted hp hs ht hh hle ha, pollStep4_short (g := g) rfl hr]
    simp [readEvents, hp]
  case step1 => rw [step_poll1 hp hh.1, pollStep1_fits hh hle]
  case step3 => rw [step_poll3 hp ha, pollStep3_granted ha]
  case step4 => rw [step_poll4 hp hr.1, pollStep4_short hb hr]

/-- The address filter, by values (40_datapath_units R104). -/
theorem addrAccept_iff_eq (id : Fin 255) (dst : Byte) :
    addrAccept id dst = true ↔ dst = localByte id ∨ dst = 255 := by
  rw [addrAccept, Bool.or_eq_true, decide_eq_true_iff, decide_eq_true_iff]
  rfl

/-- Settles O21: the accepted payload is handed over, and the return releases its buffer. -/
theorem pollDispatches : Obligations.PollDispatches := by
  refine ⟨fun s t1 t2 t3 d p h a g moves hp hs ht hh hle ha hr hdst hvalid hm => ?whole,
    fun s t p g moves hp hb hr hdst hvalid hm => ?step4⟩
  case whole =>
    have haddr := (addrAccept_iff_eq s.localId h.dst).2 hdst
    rw [exec_poll_granted hp hs ht hh hle ha, pollStep4_call (by exact hr) (by exact haddr) (by exact hvalid),
      awaitHandler_returned (g := g) (moves := moves) rfl (by exact hm)]
    simp [readEvents, hp]
  case step4 =>
    have haddr := (addrAccept_iff_eq s.localId s.hdr.dst).2 hdst
    rw [step_poll4 hp hr.1, pollStep4_call hr haddr hvalid,
      awaitHandler_returned (g := g) (moves := moves) (by exact hb) (by exact hm)]
    simp

/-- Settles O22: the accepted payload is handed over, and before its return the call stands. -/
theorem pollWaitsInDispatch : Obligations.PollWaitsInDispatch := by
  refine ⟨fun s t1 t2 t3 d p h a g hp hs ht hh hle ha hr haddr hvalid hm => ?whole,
    fun s t p hp hr haddr hvalid hm => ?step4⟩
  case whole =>
    rw [exec_poll_granted hp hs ht hh hle ha, pollStep4_call (by exact hr) (by exact haddr) (by exact hvalid),
      awaitHandler_waits (by exact hm)]
    exact ⟨_, rfl, rfl, rfl, rfl, readBytes_of_payloadArrives hr [], rfl, rfl, by simp [readEvents]⟩
  case step4 => rw [step_poll4 hp hr.1, pollStep4_call hr haddr hvalid, awaitHandler_waits (by exact hm)]

/-- Settles O23: the release and the end of the POLL follow the return. -/
theorem handlerReturnEndsPoll : Obligations.HandlerReturnEndsPoll := by
  intro s moves g hp hm hb
  rw [step_ret hp hm, pollStep6_held (g := g) (by exact hb)]
  simp

/-- A whole frame that is not for this node, or finds no handler, is read and dropped (92_eei_decisions D9, D10). -/
theorem exec_poll_drop {s : State} {t1 t2 t3 : Transport} {d p : List Byte} {h : Header} {a : Allocator} {g : Handle}
    (hp : s.phase = .idle) (hs : s.status ≠ .notInitialized) (ht : s.transport.available = some (true, t1))
    (hh : headerArrives t1 d h t2) (hle : h.size.toNat ≤ 500) (ha : s.allocator.acquire = some (.ok g, a))
    (hr : payloadArrives t2 h.size p t3) (hno : ¬(addrAccept s.localId h.dst = true ∧ s.handlerValid = true)) :
    exec .poll s =
      .next { s with transport := t3, hdr := h, allocator := a, bufh := none, pbuf := [],
                     trace := s.trace ++ availableEvents true ++ readEvents 6 6 d ++ acquireEvents h.size (.ok g) ++
                       readEvents h.size h.size p ++ [.request (.aRelease g)],
                     responses := s.responses ++ [(.host, .done)] } := by
  rw [exec_poll_granted hp hs ht hh hle ha, pollStep4_drop (g := g) rfl hr hno]
  simp [readEvents, hp]

theorem step_poll4_drop {s : State} {t : Transport} {p : List Byte} {g : Handle} (hp : s.phase = .poll4)
    (hb : s.bufh = some g) (hr : payloadArrives s.transport s.hdr.size p t)
    (hno : ¬(addrAccept s.localId s.hdr.dst = true ∧ s.handlerValid = true)) :
    step s =
      .next { s with transport := t, phase := .idle, bufh := none, pbuf := [],
                     trace := s.trace ++ [.answer (.tReadBytes s.hdr.size p), .request (.aRelease g)],
                     responses := s.responses ++ [(.host, .done)] } := by
  rw [step_poll4 hp hr.1, pollStep4_drop hb hr hno]

/-- Settles O24: the filter does not accept another node's frame. -/
theorem pollDropsOtherDestinations : Obligations.PollDropsOtherDestinations := by
  have hno {id : Fin 255} {dst : Byte} {valid : Bool} (hlocal : dst ≠ localByte id) (hall : dst ≠ 255) :
      ¬(addrAccept id dst = true ∧ valid = true) := fun ⟨haddr, _⟩ =>
    ((addrAccept_iff_eq id dst).1 haddr).elim hlocal hall
  exact ⟨fun _ _ _ _ _ _ _ _ _ hp hs ht hh hle ha hr hlocal hall =>
      exec_poll_drop hp hs ht hh hle ha hr (hno hlocal hall),
    fun _ _ _ _ hp hb hr hlocal hall => step_poll4_drop hp hb hr (hno hlocal hall)⟩

/-- Settles O25: there is no handler to call. -/
theorem pollWithoutHandler : Obligations.PollWithoutHandler :=
  ⟨fun _ _ _ _ _ _ _ _ _ hp hs ht hh hle ha hr hvalid =>
      exec_poll_drop hp hs ht hh hle ha hr (by simp [hvalid]),
    fun _ _ _ _ hp hb hr hvalid => step_poll4_drop hp hb hr (by simp [hvalid])⟩

/-! ## POLL, RECV and BEGIN from the handler -/

theorem State.acceptHost_dispatch {s : State} (hp : s.phase = .dispatch) (why : Rejection) (kind : ResponseKind)
    (k : Result) : s.acceptHost why kind k = .next (s.reject .handler why kind) := by
  simp only [State.acceptHost, hp, Phase.caller]

/-- Settles O10: each of the three is rejected, and a rejection writes the record alone. -/
theorem handlerMayNotReceiveOrBegin : Obligations.HandlerMayNotReceiveOrBegin := by
  refine fun s hp => ⟨?begin, ?poll, fun n => ?recv⟩
  case begin | poll => exact ⟨_, State.acceptHost_dispatch hp .., sameButRecord_reject .., rfl⟩
  case recv => exact ⟨_, _, State.acceptHost_dispatch hp .., sameButRecord_reject .., rfl⟩

/-! ## POLL and the checksum function -/

/-- `s` with another checksum function (20_memory R52). -/
def State.withCrcUnit (u : CrcUnit) (s : State) : State := { s with crcUnit := u }

@[simp] theorem State.withCrcUnit_phase (u : CrcUnit) (s : State) : (s.withCrcUnit u).phase = s.phase := rfl
@[simp] theorem State.withCrcUnit_bufh (u : CrcUnit) (s : State) : (s.withCrcUnit u).bufh = s.bufh := rfl
@[simp] theorem State.withCrcUnit_hdr (u : CrcUnit) (s : State) : (s.withCrcUnit u).hdr = s.hdr := rfl
@[simp] theorem State.withCrcUnit_pbuf (u : CrcUnit) (s : State) : (s.withCrcUnit u).pbuf = s.pbuf := rfl
@[simp] theorem State.withCrcUnit_handler (u : CrcUnit) (s : State) : (s.withCrcUnit u).handler = s.handler := rfl
@[simp] theorem State.withCrcUnit_transport (u : CrcUnit) (s : State) : (s.withCrcUnit u).transport = s.transport := rfl
@[simp] theorem State.withCrcUnit_allocator (u : CrcUnit) (s : State) : (s.withCrcUnit u).allocator = s.allocator := rfl

/-- What runs the same way, whatever the checksum function of its state. -/
def IgnoresCrc (run : State → Result) : Prop :=
  ∀ (u : CrcUnit) (s : State), run (s.withCrcUnit u) = mapNext (State.withCrcUnit u) (run s)

/-- The rest of an operation, from a state that goes along with the change. -/
theorem IgnoresCrc.next {run : State → Result} (h : IgnoresCrc run) {u : CrcUnit} {s s' : State}
    (hs : s' = s.withCrcUnit u := by rfl) : run s' = mapNext (State.withCrcUnit u) (run s) :=
  hs ▸ h u s

theorem ignoresCrc_awaitReadBytes (n : State → U16) (hn : ∀ u s, n (s.withCrcUnit u) = n s)
    {k : U16 → List Byte → State → Result} (hk : ∀ got d, IgnoresCrc (k got d)) :
    IgnoresCrc fun s => s.awaitReadBytes (n s) k := by
  intro u s
  simp only [State.awaitReadBytes, State.withCrcUnit_transport, hn]
  split
  · rfl
  · exact ite_eq_mapNext (hk _ _).next rfl

theorem ignoresCrc_pollStep6 : IgnoresCrc pollStep6 := by
  intro u s
  simp only [pollStep6, State.releaseBuffer, State.withCrcUnit_bufh]
  split <;> rfl

theorem ignoresCrc_awaitHandler : IgnoresCrc awaitHandler := by
  intro u s
  simp only [awaitHandler, State.withCrcUnit_handler]
  split
  · exact ignoresCrc_pollStep6.next
  · rfl
  · rfl

theorem ignoresCrc_pollStep5 : IgnoresCrc pollStep5 := by
  intro u s
  refine ite_eq_mapNext ?_ ignoresCrc_pollStep6.next
  simp only [State.withCrcUnit_pbuf, State.withCrcUnit_hdr]
  split
  · rfl
  · exact ignoresCrc_awaitHandler.next

theorem ignoresCrc_pollStep4 : IgnoresCrc pollStep4 :=
  ignoresCrc_awaitReadBytes _ (fun _ _ => rfl) fun _ d u s => by
    refine ite_eq_mapNext ?_ ignoresCrc_pollStep5.next
    simp only [State.releaseBuffer, State.withCrcUnit_bufh]
    split <;> rfl

theorem ignoresCrc_pollStep3 : IgnoresCrc pollStep3 := by
  intro u s
  simp only [pollStep3, State.withCrcUnit_allocator]
  split
  · rfl
  · split
    · rfl
    · exact ignoresCrc_pollStep4.next

theorem ignoresCrc_pollDrain : IgnoresCrc pollDrain := fun _ _ => ite_eq_mapNext rfl rfl

theorem ignoresCrc_pollStep2 : IgnoresCrc pollStep2 := fun _ _ =>
  ite_eq_mapNext ignoresCrc_pollDrain.next ignoresCrc_pollStep3.next

theorem ignoresCrc_pollStep1 : IgnoresCrc pollStep1 := by
  unfold pollStep1 State.awaitHeader
  refine ignoresCrc_awaitReadBytes (fun _ => Config.headerSize) (fun _ _ => rfl) fun _ d u s => ?_
  cases parseHeader d with
  | none => rfl
  | some h => exact ignoresCrc_pollStep2.next

theorem ignoresCrc_pollStep0 : IgnoresCrc pollStep0 := by
  intro u s
  simp only [pollStep0, State.withCrcUnit_transport]
  split
  · rfl
  · exact ite_eq_mapNext ignoresCrc_pollStep1.next rfl

theorem ignoresCrc_execPoll : IgnoresCrc (exec .poll) := by
  intro u s
  simp only [exec, execPoll, State.acceptHost, State.withCrcUnit_phase]
  split
  · rfl
  · rfl
  · exact ite_eq_mapNext rfl ignoresCrc_pollStep0.next

/-- A step that goes on with a POLL outside its dispatch; one that waits does so with any function. -/
theorem step_withCrcUnit (u : CrcUnit) {s : State}
    (hp : s.phase ∈ [.poll0, .poll1, .poll2, .poll3, .poll4, .poll5, .poll6]) :
    step (s.withCrcUnit u) = mapNext (State.withCrcUnit u) (step s) := by
  have idle : s.phase ≠ .idle := by rintro h; simp [h] at hp
  have disp : s.phase ≠ .dispatch := by rintro h; simp [h] at hp
  have waiting : (s.withCrcUnit u).waitingOn = s.waitingOn := rfl
  cases hw : s.waitingOn with
  | some ch =>
    rw [step_waiting hw, step_waiting (waiting.trans hw)]
    rfl
  | none =>
    rw [step_resume hw idle disp, step_resume (waiting.trans hw) idle disp, resume, resume, State.withCrcUnit_phase]
    simp only [List.mem_cons, List.not_mem_nil, or_false] at hp
    rcases hp with hp | hp | hp | hp | hp | hp | hp <;> rw [hp]
    · exact ignoresCrc_pollStep0 u s
    · exact ignoresCrc_pollStep1 u s
    · exact ignoresCrc_pollDrain u s
    · exact ignoresCrc_pollStep3 u s
    · exact ignoresCrc_pollStep4 u s
    · exact ignoresCrc_pollStep5 u s
    · exact ignoresCrc_pollStep6 u s

/-- Settles O26: no step of POLL reads the checksum function. -/
theorem pollComparesNoChecksum : Obligations.PollComparesNoChecksum := fun s u =>
  ⟨ignoresCrc_execPoll u s, step_withCrcUnit u⟩

/-! ## What SEND leaves alone -/

/-- `t` can follow `s` in the SEND of `c` whose operands are loaded (44_send R180, R182): everything is the same but the
header this SEND works on, `TX`, the transport, the phase and the record of events, responses and rejections. -/
def SendKeeps (c : Caller) (s t : State) : Prop :=
  State.loadSendHdr
    { s with phase := t.phase, tx := t.tx, transport := t.transport, trace := t.trace, responses := t.responses
             rejected := t.rejected } c (t.sendHdr c) = t

namespace SendKeeps

variable {c : Caller} {s t u : State}

theorem refl (c : Caller) (s : State) : SendKeeps c s s := by cases c <;> rfl

theorem trans (h : SendKeeps c s t) (k : SendKeeps c t u) : SendKeeps c s u := by
  unfold SendKeeps at *
  rw [← h] at k
  cases c <;> exact k

/-- The rest of an operation, after an update. -/
theorem after {r : Result} (hr : AllNext (SendKeeps c t) r) (h : SendKeeps c s t) : AllNext (SendKeeps c s) r :=
  hr.mono fun _ => h.trans

/-- What SEND writes besides its header. -/
theorem record (c : Caller) (s : State) (p : Phase) (tx : List Byte) (tr : Transport) (es : List Event)
    (rs : List (Caller × Response)) (why : List Rejection) :
    SendKeeps c s { s with phase := p, tx := tx, transport := tr, trace := es, responses := rs, rejected := why } := by
  cases c <;> rfl

theorem loadSendHdr (c : Caller) (s : State) (h : Header) : SendKeeps c s (s.loadSendHdr c h) := by cases c <;> rfl

end SendKeeps

section

variable {c : Caller} (s : State)

theorem sendKeeps_sendStep5 : AllNext (SendKeeps c s) (sendStep5 c s) :=
  allNext_sendStep5 (.refl c s) fun _ _ => .record ..

theorem sendKeeps_sendStep4 : AllNext (SendKeeps c s) (sendStep4 c s) :=
  allNext_sendStep4 (.refl c s) fun _ _ => SendKeeps.after (sendKeeps_sendStep5 _) (.record ..)

theorem sendKeeps_sendStep3 : AllNext (SendKeeps c s) (sendStep3 c s) :=
  allNext_sendStep3 (.refl c s) fun _ _ _ _ => SendKeeps.after (sendKeeps_sendStep4 _) (.record ..)

theorem sendKeeps_sendStep2 : AllNext (SendKeeps c s) (sendStep2 c s) :=
  allNext_sendStep2 (.refl c s) fun _ _ => SendKeeps.after (sendKeeps_sendStep3 _) (.record ..)

theorem sendKeeps_sendStep1 : AllNext (SendKeeps c s) (sendStep1 c s) :=
  allNext_sendStep1 fun _ _ =>
    SendKeeps.after (sendKeeps_sendStep2 _) ((SendKeeps.loadSendHdr c s _).trans (.record ..))

end

/-- What a whole SEND of `c` with the operands `dst` and `size` can do: it loads them, or leaves those it finds. -/
def SendAdvances (c : Caller) (dst : Byte) (size : U16) (s t : State) : Prop :=
  ∃ d n, (d = s.cmdDst ∨ d = dst) ∧ (n = s.cmdArg ∨ n = size) ∧
    SendKeeps c { s with cmdDst := d, cmdArg := n } t

section

variable {c : Caller} {dst : Byte} {size : U16} {s : State}

theorem SendKeeps.advances {t : State} (h : SendKeeps c s t) : SendAdvances c dst size s t :=
  ⟨s.cmdDst, s.cmdArg, .inl rfl, .inl rfl, h⟩

theorem Caller.restPhase_injective : Function.Injective Caller.restPhase := fun c c' h => by
  simpa using congrArg Phase.caller h

theorem sendAdvances_exec (hp : s.phase = c.restPhase) :
    AllNext (SendAdvances c dst size s) (exec (.send dst size) s) :=
  allNext_execSend (fun _ _ _ => (SendKeeps.record ..).advances) fun c' hc _ => by
    cases Caller.restPhase_injective (hc.symm.trans hp)
    exact (sendKeeps_sendStep1 _).mono fun _ k => ⟨dst, size, .inr rfl, .inr rfl, (SendKeeps.record ..).trans k⟩

/-- A step that goes on with the SEND of `c`. -/
theorem sendKeeps_step (hp : s.phase ∈ [.send1 c, .send2 c, .send3 c, .send4 c, .send5 c]) :
    AllNext (SendKeeps c s) (step s) := by
  refine allNext_step (fun _ _ hidle _ => by simp [hidle] at hp) (fun _ _ hdisp _ => by simp [hdisp] at hp) fun _ => ?_
  simp only [List.mem_cons, List.not_mem_nil, or_false] at hp
  unfold resume
  rcases hp with hp | hp | hp | hp | hp <;> rw [hp]
  · exact sendKeeps_sendStep1 s
  · exact sendKeeps_sendStep2 s
  · exact sendKeeps_sendStep3 s
  · exact sendKeeps_sendStep4 s
  · exact sendKeeps_sendStep5 s

end

/-- Settles O36: what a SEND keeps, with its operands loaded, read off field by field. -/
theorem sendKeepsFrame : Obligations.SendFrame := by
  intro s t c dst size h
  have hadv : SendAdvances c dst size s t := by
    rcases h with ⟨hp, hexec⟩ | ⟨hstep, hp, -, -⟩
    · exact (sendAdvances_exec hp).of_eq hexec
    · exact ((sendKeeps_step hp).of_eq hstep).advances
  obtain ⟨d, n, hd, hn, k⟩ := hadv
  rw [SendKeeps] at k
  rw [← k]
  refine ⟨?_, ?_, ?_, ?_, ?_, ?_, ?_, ?_, ?_, ?_, ?_, ?_, ?_, ?_, ?_, ?dst, ?arg, ?hdr, ?nested⟩
  case dst => simpa using hd
  case arg => simpa using hn
  case hdr => rintro rfl; rfl
  case nested => rintro rfl; rfl
  all_goals simp

end Sys2Proof.Machine

/-! SUPPORT and proofs of the family 43_receive: RECV request by request, what it does not read, and a SEND received by
a peer over a reference transport. -/

namespace Sys2Proof.Machine

/-! ## RECV, request by request -/

section

variable {s : State}

theorem goesOn_recv1 (hp : s.phase = .recv1) : goesOn s = recvStep1 s := by
  rw [goesOn_resume (by simp [hp]) (by simp [hp]), resume, hp]

theorem goesOn_recv2 (hp : s.phase = .recv2) : goesOn s = recvDrain s := by
  rw [goesOn_resume (by simp [hp]) (by simp [hp]), resume, hp]

theorem goesOn_recv3 (hp : s.phase = .recv3) : goesOn s = recvStep3 s := by
  rw [goesOn_resume (by simp [hp]) (by simp [hp]), resume, hp]

/-! ### A step whose answer is there -/

theorem step_recv1 {x : U16 × List Byte × Transport} (hp : s.phase = .recv1)
    (h : s.transport.readBytes Config.headerSize = some x) : step s = recvStep1 s := by
  rw [step_eq_goesOn (by simp [State.waitingOn, hp, h]), goesOn_recv1 hp]

theorem step_recv2 {x : Option Byte × Transport} (hp : s.phase = .recv2) (h : s.transport.read = some x) :
    step s = recvDrain s := by
  rw [step_eq_goesOn (by simp [State.waitingOn, hp, h]), goesOn_recv2 hp]

theorem step_recv3 {x : U16 × List Byte × Transport} (hp : s.phase = .recv3)
    (h : s.transport.readBytes s.hdr.size = some x) : step s = recvStep3 s := by
  rw [step_eq_goesOn (by simp [State.waitingOn, hp, h]), goesOn_recv3 hp]

/-! ### The steps, answer by answer -/

/-- A RECV past the gate stands at, or goes on from, its header read. -/
theorem exec_recv {capacity : U16} (hp : s.phase = .idle) (hs : s.status ≠ .notInitialized) :
    exec (.recv capacity) s =
      goesOn { s with phase := .recv1, cmdArg := capacity, trace := s.trace ++ [.request (.tReadBytes 6)] } := by
  rw [goesOn_recv1 rfl]
  exact (State.acceptHost_idle hp ..).trans (if_neg hs)

theorem recvStep1_short {t : Transport} {k : U16} {d : List Byte} (hr : shortRead s.transport 6 k d t) :
    recvStep1 s =
      .next { s with transport := t, status := .badHeader, phase := .idle, draws := s.draws + 1,
                     trace := s.trace ++ [.answer (.tReadBytes k d)],
                     responses := s.responses ++ [(.host, .recv 0 (Config.freeHeaderOut s.freeSource s.draws))] } :=
  State.awaitHeader_short hr

theorem overSizeRecv_iff (size capacity : U16) :
    overSizeRecv size capacity = true ↔ 500 < size.toNat ∨ capacity.toNat < size.toNat :=
  (overSizeIsStrict size capacity).2

/-- A header within the limit and the capacity: the payload is asked for. -/
theorem recvStep1_fits {t : Transport} {d : List Byte} {h : Header} (hh : headerArrives s.transport d h t)
    (hle : h.size.toNat ≤ 500) (hcap : h.size.toNat ≤ s.cmdArg.toNat) :
    recvStep1 s =
      goesOn { s with transport := t, phase := .recv3, hdr := h,
                      trace := s.trace ++ [.answer (.tReadBytes 6 d), .request (.tReadBytes h.size)] } := by
  have fits : ¬overSizeRecv h.size s.cmdArg = true := by rw [overSizeRecv_iff]; omega
  rw [goesOn_recv3 rfl, recvStep1, State.awaitHeader_arrives hh]
  simp [recvStep2, fits, State.request]

theorem ne_zero_of_overSize {size capacity : U16} (hlt : 500 < size.toNat ∨ capacity.toNat < size.toNat) :
    size ≠ 0 := fun h => by
  simp [h] at hlt

/-- An oversize header: the drain begins. -/
theorem recvStep1_large {t : Transport} {d : List Byte} {h : Header} (hh : headerArrives s.transport d h t)
    (hlt : 500 < h.size.toNat ∨ s.cmdArg.toNat < h.size.toNat) :
    recvStep1 s =
      goesOn { s with transport := t, phase := .recv2, status := .packetOverSize, hdr := h, drainLeft := h.size,
                      trace := s.trace ++ [.answer (.tReadBytes 6 d), .request .tRead] } := by
  rw [goesOn_recv2 rfl, recvStep1, State.awaitHeader_arrives hh]
  simp only [recvStep2, overSizeRecv_iff, hlt, if_true, State.beginDrain_pos _ _ (ne_zero_of_overSize hlt),
    List.append_assoc]
  rfl

theorem recvStep3_short {t : Transport} {k : U16} {p : List Byte} (hr : shortRead s.transport s.hdr.size k p t) :
    recvStep3 s =
      .next { s with transport := t, status := .badPacket, phase := .idle, cbuf := s.cbuf.writeBytes 0 p,
                     trace := s.trace ++ [.answer (.tReadBytes k p)],
                     responses := s.responses ++ [(.host, .recv 0 s.hdr)] } := by
  obtain ⟨hread, hlt, hlen⟩ := hr
  rw [recvStep3, State.awaitReadBytes_answered hread (BitVec.le_of_lt hlt) hlen]
  exact if_pos hlt

theorem recvStep3_arrives {t : Transport} {p : List Byte} (hr : payloadArrives s.transport s.hdr.size p t) :
    recvStep3 s =
      recvStep4 { s with transport := t, cbuf := s.cbuf.writeBytes 0 p,
                         trace := s.trace ++ [.answer (.tReadBytes s.hdr.size p)] } := by
  obtain ⟨hread, hlen⟩ := hr
  rw [recvStep3, State.awaitReadBytes_answered hread (BitVec.le_refl _) hlen]
  simp

/-- A whole payload whose checksum agrees with the header's is received. -/
theorem recvStep3_good {t : Transport} {p : List Byte} (hr : payloadArrives s.transport s.hdr.size p t)
    (hcrc : s.crcUnit.crc16 p = s.hdr.crc) :
    recvStep3 s =
      .next { s with transport := t, phase := .idle, cbuf := s.cbuf.writeBytes 0 p,
                     trace := s.trace ++ [.answer (.tReadBytes s.hdr.size p)],
                     responses := s.responses ++ [(.host, .recv s.hdr.size s.hdr)] } := by
  rw [recvStep3_arrives hr]
  simp only [recvStep4, readBytes_of_payloadArrives hr, crcOK, hcrc, decide_true, if_true]
  rfl

/-- A whole payload whose checksum disagrees takes the error exit. -/
theorem recvStep3_bad {t : Transport} {p : List Byte} (hr : payloadArrives s.transport s.hdr.size p t)
    (hcrc : s.crcUnit.crc16 p ≠ s.hdr.crc) :
    recvStep3 s =
      .next { s with transport := t, status := .crcError, phase := .idle, cbuf := s.cbuf.writeBytes 0 p,
                     trace := s.trace ++ [.answer (.tReadBytes s.hdr.size p)],
                     responses := s.responses ++ [(.host, .recv 0 s.hdr)] } := by
  rw [recvStep3_arrives hr]
  simp [recvStep4, readBytes_of_payloadArrives hr, crcOK, hcrc, State.fail]

/-! ### From rest -/

/-- With a header within the limit and the capacity, a RECV goes on from its payload read. -/
theorem exec_recv_fits {capacity : U16} {t : Transport} {d : List Byte} {h : Header} (hp : s.phase = .idle)
    (hs : s.status ≠ .notInitialized) (hh : headerArrives s.transport d h t) (hle : h.size.toNat ≤ 500)
    (hcap : h.size.toNat ≤ capacity.toNat) :
    exec (.recv capacity) s =
      recvStep3 { s with transport := t, phase := .recv3, hdr := h, cmdArg := capacity,
                         trace := s.trace ++ readEvents 6 6 d ++ [.request (.tReadBytes h.size)] } := by
  rw [exec_recv hp hs, goesOn_recv1 rfl, recvStep1_fits (by exact hh) hle (by exact hcap), goesOn_recv3 rfl]
  simp [readEvents]

end

/-- Settles O28: the header is awaited at step 1, the payload at step 3, and its checksum agrees. -/
theorem recvReceives : Obligations.RecvReceives := by
  refine ⟨fun s capacity t1 t2 d p h hp hs hh hle hcap hr hcrc => ?whole, fun s capacity hp hs => exec_recv hp hs,
    fun s t d h hp hh hle hcap => ?step1, fun s t p hp hr hcrc => ?step3⟩
  case whole =>
    rw [exec_recv_fits hp hs hh hle hcap, recvStep3_good (by exact hr) (by exact hcrc)]
    simp [readEvents, hp]
  case step1 => rw [step_recv1 hp hh.1, recvStep1_fits hh hle hcap]
  case step3 => rw [step_recv3 hp hr.1, recvStep3_good hr hcrc]

/-- Settles O29: a short header takes the error exit, with a free value for `header_out`. -/
theorem recvShortHeader : Obligations.RecvShortHeader := by
  refine ⟨fun s capacity t k d hp hs hr => ⟨Config.freeHeaderOut s.freeSource s.draws, s.draws + 1, ?whole⟩,
    fun s t k d hp hr => ⟨Config.freeHeaderOut s.freeSource s.draws, s.draws + 1, ?step1⟩⟩
  case whole =>
    rw [exec_recv hp hs, goesOn_recv1 rfl, recvStep1_short (by exact hr)]
    simp [readEvents, hp]
  case step1 => rw [step_recv1 hp hr.1, recvStep1_short hr]

/-- Settles O30: the drain begins with its first read, and each answer leads to the next read or to the end. -/
theorem recvOversizeDrains : Obligations.RecvOversizeDrains := by
  refine ⟨fun s capacity t1 t2 d h vs hp hs hh hlt hvs => ?whole, fun s t d h hp hh hlt => ?step1,
    fun s t v hp hv => ⟨fun hleft => ?more, fun hleft => ?last⟩⟩
  case whole =>
    have hreads : [.request .tRead] ++ drainEvents 0 vs = drainTrace vs := by
      rw [← drainEvents_begun hvs.2, if_neg (ne_zero_of_overSize hlt)]
    rw [exec_recv hp hs, goesOn_recv1 rfl, recvStep1_large (by exact hh) (by exact hlt), goesOn_recv2 rfl, recvDrain,
      State.awaitDrain_answered hvs]
    simp [State.finish, readEvents, hp, ← hreads]
  case step1 => rw [step_recv1 hp hh.1, recvStep1_large hh hlt]
  case more => rw [step_recv2 hp hv, recvDrain, awaitDrain_more hleft hv, goesOn_recv2 (by exact hp), recvDrain]
  case last =>
    rw [step_recv2 hp hv, recvDrain, awaitDrain_last hleft hv]
    rfl

/-- Settles O31: a short payload takes the error exit, with what arrived stored. -/
theorem recvShortPayload : Obligations.RecvShortPayload := by
  refine ⟨fun s capacity t1 t2 d p h k hp hs hh hle hcap hr => ?whole, fun s t k p hp hr => ?step3⟩
  case whole =>
    rw [exec_recv_fits hp hs hh hle hcap, recvStep3_short (by exact hr)]
    simp [readEvents, hp]
  case step3 => rw [step_recv3 hp hr.1, recvStep3_short hr]

/-- Settles O32: of the three writers of the status only RECV has this error, and the whole payload is there before its
checksum is compared. -/
theorem recvCrcMismatch : Obligations.RecvCrcMismatch := by
  refine ⟨fun s t hstep hne hst => ?writer, fun s capacity t1 t2 d p h hp hs hh hle hcap hr hcrc => ?whole,
    fun s t p hp hr hcrc => ?step3⟩
  case writer =>
    rcases statusWriters s t hstep hne with ⟨-, hbegin⟩ | ⟨-, hpoll⟩ | ⟨hrecv, -⟩
    · simp [hst] at hbegin
    · simp [hst] at hpoll
    · exact hrecv
  case whole =>
    rw [exec_recv_fits hp hs hh hle hcap, recvStep3_bad (by exact hr) (by exact hcrc)]
    simp [readEvents, hp]
  case step3 => rw [step_recv3 hp hr.1, recvStep3_bad hr hcrc]

/-! ## What RECV does not read -/

section

variable {s : State} (hp : s.phase ∈ [.recv1, .recv2, .recv3, .recv4])
include hp

theorem resume_withRecvPart (g : State) : resume (g.withRecvPart s) = mapNext g.withRecvPart (resume s) := by
  rw [resume, resume, State.withRecvPart_phase]
  simp only [List.mem_cons, List.not_mem_nil, or_false] at hp
  rcases hp with hp | hp | hp | hp <;> rw [hp]
  · exact recvStep1_withRecvPart g s
  · exact recvDrain_withRecvPart g s
  · exact recvStep3_withRecvPart g s
  · exact recvStep4_withRecvPart g s

/-- What a RECV waits for lies within its part of the state. -/
theorem waitingOn_withRecvPart (g : State) : (g.withRecvPart s).waitingOn = s.waitingOn := by
  rw [State.waitingOn, State.waitingOn, State.withRecvPart_phase]
  simp only [List.mem_cons, List.not_mem_nil, or_false] at hp
  rcases hp with hp | hp | hp | hp <;> rw [hp] <;> rfl

/-- A step that goes on with a RECV runs within RECV's part of the state. -/
theorem step_withRecvPart (g : State) : step (g.withRecvPart s) = mapNext g.withRecvPart (step s) := by
  have idle : s.phase ≠ .idle := by rintro h; simp [h] at hp
  have disp : s.phase ≠ .dispatch := by rintro h; simp [h] at hp
  have waiting := waitingOn_withRecvPart hp g
  cases hw : s.waitingOn with
  | some ch =>
    rw [step_waiting hw, step_waiting (waiting.trans hw)]
    rfl
  | none =>
    rw [step_resume hw idle disp, step_resume (waiting.trans hw) idle disp]
    exact resume_withRecvPart hp g

end

/-- Settles O33: the five fields stand outside what RECV reads or writes. -/
theorem recvIgnoresAddressHandlerAndAllocator : Obligations.RecvIgnoresAddressHandlerAndAllocator := by
  intro s id valid ref al moves
  have outside (run : State → Result)
      (hrun : ∀ g : State, run (g.withRecvPart s) = mapNext g.withRecvPart (run s)) :=
    commutes_of_withRecvPart hrun (f := fun t =>
      { t with localId := id, handlerValid := valid, handlerRef := ref, allocator := al, handler := moves })
      fun _ => rfl
  exact ⟨fun capacity => outside _ (exec_recv_withRecvPart · s capacity),
    fun hp => outside _ (step_withRecvPart hp)⟩

/-! ## A frame over a reference transport -/

/-- A reference transport that holds the bytes asked for hands them over and keeps the rest (20_memory R63). -/
theorem payloadArrives_line {line : List Byte → Transport} (hline : line = .queue ∨ line = .blocking) {n : U16}
    {p : List Byte} (hlen : p.length = n.toNat) (more : List Byte) :
    payloadArrives (line (p ++ more)) n p (line more) := by
  refine ⟨?_, hlen⟩
  rcases hline with rfl | rfl
  · have hcount : BitVec.ofNat 16 p.length = n := by simp [hlen]
    simp [Transport.readBytes, ← hlen, hcount]
  · simp [Transport.readBytes, ← hlen]

theorem headerArrives_line {line : List Byte → Transport} (hline : line = .queue ∨ line = .blocking) (h : Header)
    (more : List Byte) : headerArrives (line (buildHeader h ++ more)) (buildHeader h) h (line more) :=
  ⟨(payloadArrives_line hline (buildHeader_length h) more).1, parseHeader_buildHeader h⟩

/-- Settles O37: the SEND adds its header and payload to `TX`, and the peer's RECV meets both whole, with the checksum
the sender computed. -/
theorem sendThenReceive : Obligations.SendThenReceive := by
  intro s r dst size capacity p t' more line hp hs hsrc ht hle hrp hrs hcrc hcap hline
  have hlen : p.length = size.toNat := Memory.readBytes_length _ _ _ _ hsrc
  refine ⟨_, sendFrame (s.sentHeader dst size p) p, sendWritesOneFrame.1 s .host dst size p t' hp hs hsrc ht, rfl,
    by simp [sendFrame, buildHeader_length, hlen], fun hstream => ?received⟩
  case received =>
    have hpayload := payloadArrives_line hline hlen more
    have hheader : headerArrives r.transport (buildHeader (s.sentHeader dst size p)) (s.sentHeader dst size p)
        (line (p ++ more)) := by
      rw [hstream, sendFrame, List.append_assoc]
      exact headerArrives_line hline _ _
    have hagree : r.crcUnit.crc16 p = (s.sentHeader dst size p).crc := by rw [hcrc]; rfl
    exact ⟨_, recvReceives.1 r capacity _ _ _ p _ hrp hrs hheader hle hcap hpayload hagree, rfl, rfl, hrp,
      readBytes_of_payloadArrives hpayload _, rfl⟩

end Sys2Proof.Machine

/-! PROOFS of the family 60_exceptions: the error only a failed acquire raises, and the status during a dispatch. -/

namespace Sys2Proof.Machine

/-! ## The refused payload buffer -/

/-- An acquire that fails takes the error exit with nothing to release. -/
theorem pollStep3_refused {s : State} {a : Allocator} (ha : s.allocator.acquire = some (.fail, a)) :
    pollStep3 s =
      .next { s with allocator := a, status := .allocationFailure, phase := .idle,
                     trace := s.trace ++ [.answer (.aAcquire .fail)],
                     responses := s.responses ++ [(.host, .done)] } := by
  simp only [pollStep3, ha]
  rfl

/-- Settles O19: the acquire follows the header's read and its failure ends the POLL; of the three writers of the
status only POLL has this error. -/
theorem pollAllocationFailure : Obligations.PollAllocationFailure := by
  refine ⟨fun s t1 t2 d h a hp hs ht hh hle ha => ?whole, fun s t hstep hne hst => ?writer, fun s a hp ha => ?step3⟩
  case whole =>
    rw [exec_poll_bytes hp hs ht, goesOn_poll1 rfl, pollStep1_fits hh hle, goesOn_poll3 rfl,
      pollStep3_refused (by exact ha)]
    simp [readEvents, acquireEvents, hp]
  case writer =>
    rcases statusWriters s t hstep hne with ⟨-, hbegin⟩ | ⟨hpoll, -⟩ | ⟨-, hrecv⟩
    · simp [hst] at hbegin
    · exact hpoll
    · simp [hst] at hrecv
  case step3 => rw [step_poll3 hp ha, pollStep3_refused ha]

/-! ## The status during a dispatch -/

/-- The host takes no command while a handler runs (42_poll R144). -/
theorem State.takes.not_inDispatch {s : State} {i : Instr} (h : s.takes i) : s.phase.inDispatch = false := by
  obtain ⟨hidle, -⟩ := h
  rw [hidle]
  rfl

/-- No step within a dispatch belongs to an operation that writes the status. -/
theorem not_inDispatch_of_runsWriter {s : State} (h : s.runsBegin ∨ s.runsPoll ∨ s.runsRecv) :
    s.phase.inDispatch = false := by
  have outside {ps : List Phase} (hps : ∀ p ∈ ps, p.inDispatch = false) (hp : s.phase ∈ ps) :
      s.phase.inDispatch = false := hps _ hp
  rcases h with (hp | htakes) | (hp | htakes) | (hp | ⟨_, htakes⟩)
  · rw [hp]
    rfl
  · exact htakes.not_inDispatch
  · exact outside (by decide) hp
  · exact htakes.not_inDispatch
  · exact outside (by decide) hp
  · exact htakes.not_inDispatch

/-- Settles O48: a status that changed would have one of its three writers run, and none runs within a dispatch. -/
theorem dispatchWritesNoStatus : Obligations.DispatchWritesNoStatus := by
  intro s t hdispatch hstep
  by_contra hne
  have hruns : s.runsBegin ∨ s.runsPoll ∨ s.runsRecv :=
    (statusWriters s t hstep hne).imp And.left (Or.imp And.left And.left)
  simp [not_inDispatch_of_runsWriter hruns] at hdispatch

end Sys2Proof.Machine

/-! PROOFS of the family 70_reset_and_hazards: the operation a step takes a command for. -/

namespace Sys2Proof.Machine

/-- A command whose word decodes runs its operation, with its byte space handed over. -/
theorem runCommand_instr {c : Command} {i : Instr} (hc : decode c.word = .instr i) (s : State) :
    runCommand c s = exec i (s.handOver i c.space) := by
  simp only [runCommand, hc]

/-- A word placed at rest becomes the host's first command, without a byte space. -/
theorem withFetchWord_atRest {s : State} (hp : s.phase = .idle) (nbits : Nat) (w : Word32) :
    s.withFetchWord nbits w.toNat = { s with cmds := { word := w, space := [] } :: s.cmds } := by
  simp only [State.withFetchWord, placeWord, hp, BitVec.ofNat_toNat, BitVec.setWidth_eq]

/-- The word placed at rest is the one that the next step runs (log 5). -/
theorem step_withFetchWord {s : State} (hp : s.phase = .idle) (nbits : Nat) (w : Word32) :
    step (s.withFetchWord nbits w.toNat) = runCommand { word := w, space := [] } s := by
  rw [withFetchWord_atRest hp]
  exact step_hostCommand (s := { s with cmds := _ :: s.cmds }) hp rfl

/-- Settles O5: a step takes the first command of the host at rest and of the handler in a dispatch, and a word placed
at rest is the host's first. -/
theorem stepRunsTheDecodedCommand : Obligations.StepRunsTheDecodedCommand := by
  refine fun s c i hc => ⟨fun rest hp hcmds => ?host, fun rest hp hmoves => ?handler, fun nbits hp => ?placed⟩
  case host => rw [step_hostCommand hp hcmds, runCommand_instr hc]
  case handler => rw [step_handlerCommand hp hmoves, runCommand_instr hc]
  case placed => rw [step_withFetchWord hp, runCommand_instr (c := { word := c.word, space := [] }) hc]

end Sys2Proof.Machine
